-- ==== Sys2Proof/Word.lean ====
section
/-! DEFINITION. The widths the spec gives a name to (00_scope.md R8): the byte, the byte sequence, the 8-bit
sequence number, the 32-bit tick count. There is no signed quantity anywhere in this hardware (R8). -/

namespace Sys2Proof

/-- A byte: an 8-bit unsigned value, bit 0 the least significant (R8). -/
abbrev Byte := BitVec 8

/-- A finite byte sequence, possibly empty; index 0 is the first byte, sent first (R8, R64 (e)). -/
abbrev Bytes := List Byte

/-- A sequence number, 0 to 255, arithmetic modulo 256 (R37, R155). -/
abbrev SeqNo := BitVec 8

/-- A count of ticks, 32 bits, arithmetic modulo 2^32 (R33). -/
abbrev Ticks := BitVec 32

end Sys2Proof
end

