-- ==== Sys2Proof/Config.lean ====
section
/-! DEFINITION. What an implementation fixes and what the spec leaves free. The three OPEN parameters of 00_scope.md R7
are arguments of the machine: every state carries them. Where nothing is said, the two capacities are unbounded, R7's
default. The free values are opaque constants: nothing in Lean can evaluate them, so nothing can be proved of a particular
value. The constant `POLL` is the spec's decision (R6, R176). -/

namespace Sys2Proof

/-- The parameters the spec leaves OPEN (R7, D38 to D40): "The model takes each as an argument". They are no part of
the block's mutable state (R21); a machine state carries them beside it and no step changes them (R262). -/
structure Params where
  /-- `PROTOCOL_VERSION`, 2 bits (R7, R29). -/
  protocolVersion : BitVec 2
  /-- `CARRY_CAP`, capacity of `CARRY` in bytes; `none` is unbounded, the default (R7, R112, U3). -/
  carryCap : Option Nat := none
  /-- `MAX_PAYLOAD`, longest bytes operand; `none` is unbounded, the default (R7, R85, U13). -/
  maxPayload : Option Nat := none
deriving DecidableEq, Repr, Inhabited

/-- One answer of the host's handler on port `HND`: `ok`, one bit, and the data (R57). -/
structure Answer where
  ok   : Bool
  data : Bytes
deriving DecidableEq, Repr, Inhabited

/-- `POLL`, the poll interval in ticks: the constant 10 (R6, R176). -/
abbrev Config.poll : Nat := 10

/-- DESIGN CHOICE (log 1): `PROTOCOL_VERSION` has no value in the spec (R7); a free constant. -/
opaque Config.protocolVersion : BitVec 2

/-- DESIGN CHOICE (log 2): the answer of the handler's n-th transaction that no waiting answer serves; "a model takes
it as a free input of the step" (R57). -/
opaque Config.handlerAnswer : Nat → Answer

/-- DESIGN CHOICE (log 10): the bytes `PEND` holds for a received response whose payload is longer than a finite
`MAX_PAYLOAD`. The entry is written (R158, R182, R183) and holds at most `MAX_PAYLOAD` bytes (R161, R279); the spec does
not say which. -/
opaque Config.longResponse : SeqNo → Bytes → Bytes

/-- DESIGN CHOICE (log 3): what a 32-bit length field shows for a length of 2^32 bytes or more; the spec bounds no
length (R7) and states no value there (R30, R205). -/
opaque Config.wideLength : Nat → BitVec 32

/-- The default parameters: a free version, both capacities unbounded (R7). -/
def Config.params : Params := { protocolVersion := Config.protocolVersion }

end Sys2Proof
end

