-- ==== Sys2Proof/Syntax.lean ====
section
/-! DEFINITION. The operations of the block (30_encoding.md R85 to R88): one constructor of `Instr` per row of
spec/opcode_table.json, with the operands its rule lists; and the transactions that carry them (R50, R85). -/

namespace Sys2Proof

/-- The routing header, four fields in one byte (R74). -/
structure RtHeader where
  version         : BitVec 2
  channel         : BitVec 4
  requestResponse : BitVec 1
  reserved        : BitVec 1
deriving DecidableEq, Repr

/-- The four frame types of the reliability header (R77, R142). -/
inductive FrameType where
  | dataAck | dataNoack | respAck | respNack
deriving DecidableEq, Repr

/-- The two frame types an entry of `PEND` can hold (R35). -/
inductive RespType where
  | ack | nack
deriving DecidableEq, Repr

/-- The operations, one constructor per row of spec/opcode_table.json, in the table's order. Operand widths are those
of R86 and of each operation's rule; a frame type above 3 or a register number above 9 is representable and refused by the
meaning. A channel, a timeout and the value of `REG.WR` are held as presented, whatever their size: R238 gives a channel
above 15 and a timeout above 2^31 - 1 reasons of their own, which the meaning answers, "not silently truncated" (R137). -/
inductive Instr where
  /-- `NOP`, command code 0x00 (R225). -/
  | nop
  /-- `COBS.ENC`, command code 0x01 (R101). -/
  | cobsEnc (payload : Bytes)
  /-- `COBS.DEC`, command code 0x02 (R105). -/
  | cobsDec (segment : Bytes)
  /-- `FRM.PACK`, command code 0x03 (R108). -/
  | frmPack (payload : Bytes)
  /-- `CRC.GEN`, command code 0x10 (R121). -/
  | crcGen (data : Bytes)
  /-- `VER.PACK`, command code 0x11 (R124). -/
  | verPack (payload : Bytes)
  /-- `VER.UNPACK`, command code 0x12 (R126). -/
  | verUnpack (wire : Bytes)
  /-- `RT.PACK`, command code 0x20 (R136). -/
  | rtPack (payload : Bytes) (channel : Nat) (requestResponse : BitVec 1)
  /-- `RT.UNPACK`, command code 0x21 (R139). -/
  | rtUnpack (framed : Bytes)
  /-- `RSP.PACK`, command code 0x22 (R143). -/
  | rspPack (sequence : SeqNo) (frameType : BitVec 8) (payload : Bytes)
  /-- `RSP.UNPACK`, command code 0x23 (R146). -/
  | rspUnpack (framed : Bytes)
  /-- `SEND.NOACK`, command code 0x40 (R171). -/
  | sendNoack (data : Bytes) (channel : Nat) (requestResponse : BitVec 1)
  /-- `SEND.ACK`, command code 0x41 (R172); an absent timeout is `none`. -/
  | sendAck (data : Bytes) (timeout : Option Nat) (channel : Nat) (requestResponse : BitVec 1)
  /-- `TX.PLAIN`, command code 0x48 (R205). -/
  | txPlain (channel : Nat) (requestResponse : BitVec 1) (payload : Bytes)
  /-- `CFG.WR`, command code 0x60 (R220). -/
  | cfgWr (value : BitVec 8)
  /-- `REG.RD`, command code 0x61 (R222). -/
  | regRd (number : BitVec 8)
  /-- `REG.WR`, command code 0x62 (R223). -/
  | regWr (number : BitVec 8) (value : Nat)
  /-- `RESET`, command code 0x6F (R224). -/
  | reset
  /-- `RX.CHUNK`, operation identifier 0x80: the link delivers a chunk (R208). -/
  | rxChunk (chunk : Bytes)
  /-- `RX.CLOSED`, operation identifier 0x81: the link delivers `closed` (R55). -/
  | rxClosed
  /-- `FRM.UNPACK`, operation identifier 0x82 (R110). -/
  | frmUnpack (chunk : Bytes)
  /-- `RX.DATA_ACK`, operation identifier 0x84 (R180); the header is present in `ABOVE` mode only. -/
  | rxDataAck (sequence : SeqNo) (header : Option RtHeader) (data : Bytes)
  /-- `RX.DATA_NOACK`, operation identifier 0x85 (R181). -/
  | rxDataNoack (sequence : SeqNo) (header : Option RtHeader) (data : Bytes)
  /-- `RX.RESP_ACK`, operation identifier 0x86 (R182). -/
  | rxRespAck (sequence : SeqNo) (header : Option RtHeader) (data : Bytes)
  /-- `RX.RESP_NACK`, operation identifier 0x87 (R183). -/
  | rxRespNack (sequence : SeqNo) (header : Option RtHeader) (data : Bytes)
  /-- `SEQ.NEXT`, operation identifier 0x90 (R156). -/
  | seqNext
  /-- `SEQ.NOACK`, operation identifier 0x91 (R157). -/
  | seqNoack
  /-- `PEND.STORE`, operation identifier 0x92 (R158). -/
  | pendStore (sequence : SeqNo) (frameType : RespType) (data : Bytes)
  /-- `PEND.TAKE`, operation identifier 0x93 (R159). -/
  | pendTake (sequence : SeqNo)
  /-- `PEND.PURGE`, operation identifier 0x94 (R160). -/
  | pendPurge (sequence : SeqNo)
  /-- `TICK`, operation identifier 0xA0 (R226). -/
  | tick
  /-- `WAIT.POLL`, operation identifier 0xA1 (R175). -/
  | waitPoll (sequence : SeqNo)
  /-- `RTHDR`: a verified body that begins with this routing header byte is received (R74, R209). -/
  | rtHdr (header : RtHeader) (payload : Bytes)
  /-- `RSPHDR.DATA_ACK`: a verified body whose reliability header is these two bytes, `frame_type = 0` (R76, R180);
  `route` is the routing header in front of it, which `ABOVE` mode puts there (R203). -/
  | rspHdrDataAck (route : Option RtHeader) (sequence : SeqNo) (reserved : BitVec 4) (payload : Bytes)
  /-- `RSPHDR.DATA_NOACK`: the same with `frame_type = 1` (R181). -/
  | rspHdrDataNoack (route : Option RtHeader) (sequence : SeqNo) (reserved : BitVec 4) (payload : Bytes)
  /-- `RSPHDR.RESP_ACK`: the same with `frame_type = 2` (R182). -/
  | rspHdrRespAck (route : Option RtHeader) (sequence : SeqNo) (reserved : BitVec 4) (payload : Bytes)
  /-- `RSPHDR.RESP_NACK`: the same with `frame_type = 3` (R183). -/
  | rspHdrRespNack (route : Option RtHeader) (sequence : SeqNo) (reserved : BitVec 4) (payload : Bytes)
  /-- `RSPHDR.reserved`: the same with a reserved `frame_type`, 4 to 15 (R79). -/
  | rspHdrReserved (route : Option RtHeader) (sequence : SeqNo) (frameType : BitVec 4) (reserved : BitVec 4)
      (payload : Bytes)
deriving DecidableEq, Repr

/-- The named fields of a command or operation record (R85, R86, R88). The port is transaction-level and gives a field
no wires, so a number is held as presented, whatever its size. Each
operation has at most one byte-sequence operand, held in `bytes` under whatever name its rule gives it (`payload`,
`segment`, `data`, `unit`, `framed`, `chunk`, `d`); a field an operation does not list is not looked at. -/
structure Args where
  bytes           : Bytes := []
  channel         : Nat := 0
  requestResponse : Nat := 0
  sequence        : Nat := 0
  frameType       : Nat := 0
  timeout         : Option Nat := none
  number          : Nat := 0
  value           : Nat := 0
  header          : Option Byte := none
  response        : RespType := .ack
deriving DecidableEq, Repr

/-- What selects an operation: a command record on `HCMD` (R85); an operation identifier with its operands (R88), which
stands for the link's chunk, the link's `closed`, the tick, or an internal operation looked at on its own; a received
body that begins with a routing header (R74); a received body with a reliability header (R76), in `ABOVE` mode behind a
routing header. -/
inductive Transaction where
  | cmd (code : Byte) (args : Args)
  | op (identifier : Byte) (args : Args)
  | rt (header : Byte) (payload : Bytes)
  | rsp (route : Option Byte) (byte0 byte1 : Byte) (payload : Bytes)
deriving DecidableEq, Repr

/-- The row of spec/opcode_table.json a constructor stands for, by its mnemonic. -/
def Instr.mnemonic : Instr → String
  | .nop => "NOP"
  | .cobsEnc _ => "COBS.ENC"
  | .cobsDec _ => "COBS.DEC"
  | .frmPack _ => "FRM.PACK"
  | .crcGen _ => "CRC.GEN"
  | .verPack _ => "VER.PACK"
  | .verUnpack _ => "VER.UNPACK"
  | .rtPack _ _ _ => "RT.PACK"
  | .rtUnpack _ => "RT.UNPACK"
  | .rspPack _ _ _ => "RSP.PACK"
  | .rspUnpack _ => "RSP.UNPACK"
  | .sendNoack _ _ _ => "SEND.NOACK"
  | .sendAck _ _ _ _ => "SEND.ACK"
  | .txPlain _ _ _ => "TX.PLAIN"
  | .cfgWr _ => "CFG.WR"
  | .regRd _ => "REG.RD"
  | .regWr _ _ => "REG.WR"
  | .reset => "RESET"
  | .rxChunk _ => "RX.CHUNK"
  | .rxClosed => "RX.CLOSED"
  | .frmUnpack _ => "FRM.UNPACK"
  | .rxDataAck _ _ _ => "RX.DATA_ACK"
  | .rxDataNoack _ _ _ => "RX.DATA_NOACK"
  | .rxRespAck _ _ _ => "RX.RESP_ACK"
  | .rxRespNack _ _ _ => "RX.RESP_NACK"
  | .seqNext => "SEQ.NEXT"
  | .seqNoack => "SEQ.NOACK"
  | .pendStore _ _ _ => "PEND.STORE"
  | .pendTake _ => "PEND.TAKE"
  | .pendPurge _ => "PEND.PURGE"
  | .tick => "TICK"
  | .waitPoll _ => "WAIT.POLL"
  | .rtHdr _ _ => "RTHDR"
  | .rspHdrDataAck _ _ _ _ => "RSPHDR.DATA_ACK"
  | .rspHdrDataNoack _ _ _ _ => "RSPHDR.DATA_NOACK"
  | .rspHdrRespAck _ _ _ _ => "RSPHDR.RESP_ACK"
  | .rspHdrRespNack _ _ _ _ => "RSPHDR.RESP_NACK"
  | .rspHdrReserved _ _ _ _ _ => "RSPHDR.reserved"

end Sys2Proof
end

