-- ==== Sys2Proof/Machine/State.lean ====
section
/-! DEFINITION. The state of the block (10_state.md R20): `CFG`, `STATUS`, `SEQ`, `TIMEOUT_DEFAULT`, `NOW`, `CARRY`,
`PEND[0..255]`, `WAIT[0..255]`; beside it the model's own fields (log 1, 2, 5, 6): the parameters, the transactions the
agents present, the handler's answers, and the record of what left the block on its ports. Plain data throughout. -/

namespace Sys2Proof.Machine

/-! ### Error outcomes (60_exceptions.md R231) -/

/-- Reasons of `FramingError` (R106). -/
inductive FramingReason where
  | zeroInSegment | emptySegment | truncatedBlock
deriving DecidableEq, Repr

/-- Reasons of `ChecksumError` (R126, R233). -/
inductive ChecksumReason where
  | short | residue
deriving DecidableEq, Repr

/-- Reasons of `MalformedPacket` (R237). -/
inductive MalformedReason where
  | shortHeader | badFrameType
deriving DecidableEq, Repr

/-- Reasons of `ContractViolation` (R238). -/
inductive ContractReason where
  | illegalCommand | channelRange | frameTypeRange | mode | timeoutRange | cfgReserved | registerNumber | readOnly
  | fieldRange
deriving DecidableEq, Repr

/-- An error outcome with the reason its row of R231 gives it. -/
inductive Err where
  | framing (reason : FramingReason)
  | checksum (reason : ChecksumReason)
  | protocolVersion (got : BitVec 2)
  | timeout
  | transport
  | malformed (reason : MalformedReason)
  | contract (reason : ContractReason)
  | busy (sequence : SeqNo)
deriving DecidableEq, Repr

/-- The `status` of a result or of a `DONE` event: `OK` or an error outcome (R51, R56). -/
inductive Status where
  | ok
  | error (e : Err)
deriving DecidableEq, Repr

/-! ### What crosses the ports (20_memory.md R50) -/

/-- The result fields of R86, by shape. -/
inductive Fields where
  | none
  | bytes (b : Bytes)
  | crc (c : BitVec 16)
  | routing (version channel : BitVec 8) (requestResponse reserved : BitVec 1) (payload : Bytes)
  | reliability (sequence frameType reserved : BitVec 8) (payload : Bytes)
  | sent (ok : BitVec 1) (data : Bytes)
  | sequence (q : SeqNo)
  | size (n : BitVec 32)
  | value (v : BitVec 32)
deriving DecidableEq, Repr

/-- An event on `HEV` (R56). -/
inductive Event where
  | packet (header : RtHeader) (payload : Bytes)
  | done (sequence : SeqNo) (status : Status) (ok : Bool) (data : Bytes)
  | discard (cause : Err) (raw : Bytes)
deriving DecidableEq, Repr

/-- A request on `HND`: `{seq, ft, header, data}`, the header present in `ABOVE` mode only (R57). -/
structure HandlerRequest where
  sequence  : SeqNo
  frameType : FrameType
  header    : Option RtHeader
  data      : Bytes
deriving DecidableEq, Repr

/-- A response frame held in `PEND`: its type and its payload (R35). -/
structure PendEntry where
  frameType : RespType
  data      : Bytes
deriving DecidableEq, Repr

/-- One result of `FRM.UNPACK`: `Ok(payload)` or `Err(FramingError(reason), raw)` (R110). -/
inductive Candidate where
  | ok (payload : Bytes)
  | err (reason : FramingReason) (raw : Bytes)
deriving DecidableEq, Repr

/-- What an internal operation returns to the operation that invokes it (R110, R156, R157, R159). -/
inductive Returned where
  | candidates (l : List Candidate)
  | sequence (q : SeqNo)
  | entry (e : Option PendEntry)
deriving DecidableEq, Repr

/-- What leaves the block, in the order it leaves (R59): a result on `HCMD`, one `LinkWrite` on `LTX`, an event on
`HEV`, a transaction on `HND` with its answer; and, when an internal operation is run on its own (log 5), what it
returns to its invoker. -/
inductive Output where
  | result (status : Status) (fields : Fields)
  | link (b : Bytes)
  | event (e : Event)
  | handler (request : HandlerRequest) (answer : Answer)
  | returned (r : Returned)
deriving DecidableEq, Repr

/-- What an agent presents to the block: a transaction (the host's command, the link's chunk or `closed`, the timer's
tick), or the reset input (R58, R260). -/
inductive Input where
  | resetPin
  | transaction (t : Transaction)
deriving DecidableEq, Repr

/-! ### The state -/

/-- `CFG.REL_MODE` (R26); the reserved value 3 is refused by every write (R220) and has no constructor. -/
inductive RelMode where
  | off | below | above
deriving DecidableEq, Repr

/-- The fields of `CFG` (R25). Bits 7:4 read as 0 and ignore writes, so the fields are the whole register. -/
structure Cfg where
  framingEn : Bool
  verifyEn  : Bool
  relMode   : RelMode
deriving DecidableEq, Repr

/-- A waiter slot: `idle`, or `busy(t0, timeout)` (R36). -/
inductive Waiter where
  | idle
  | busy (t0 timeout : Ticks)
deriving DecidableEq, Repr

/-- The machine. The first eight fields are the mutable state of R20; the others are the model's own. -/
structure State where
  /-- `CFG`, register 0 (R25). -/
  cfg : Cfg
  /-- `STATUS.RX_CLOSED`, bit 0 of register 1, the only bit that is not reserved (R28). -/
  rxClosed : Bool
  /-- `SEQ`, register 2 (R31). -/
  seq : SeqNo
  /-- `TIMEOUT_DEFAULT`, register 4 (R32). -/
  timeoutDefault : Ticks
  /-- `NOW`, register 6 (R33). -/
  now : Ticks
  /-- `CARRY`, the carry-over buffer (R34). -/
  carry : Bytes
  /-- `PEND[0..255]`; `none` is `empty` (R35). -/
  pend : Vector (Option PendEntry) 256
  /-- `WAIT[0..255]` (R36). -/
  wait : Vector Waiter 256
  /-- The model's own (log 1): the OPEN parameters, which no step changes. -/
  params : Params
  /-- The model's own (log 5): the transactions the agents present, in the order they take effect. -/
  inbox : List Input
  /-- The model's own (log 2): the host's waiting answers on `HND`, first first. -/
  answers : List Answer
  /-- The model's own (log 2): how many handler transactions took a free answer. -/
  freeAnswers : Nat
  /-- The model's own (log 6): everything that left the block, oldest first. -/
  out : List Output
deriving DecidableEq, Repr

/-- The block never stops with a fault: "No error is fatal: none stops the block, sets a sticky fault, or needs a
reset" (R247). No constructor. -/
inductive Fault where
deriving DecidableEq, Repr

/-- Why the model gives a step no meaning. -/
inductive Refusal where
  /-- An operation that has no meaning yet; raised by `exec` alone. Safe: nothing is claimed of it. -/
  | notModelled (mnemonic : String)
  /-- A received chunk, or an operation that runs inside one, while `STATUS.RX_CLOSED = 1`: no such operation can occur
  (R28, R55, R208). Raised by the operations the link starts. Safe: the link contract excludes it. -/
  | linkClosed
  /-- The new carry-over segment is longer than a finite `CARRY_CAP`: "the model gives that step no meaning"
  (R112, U3). Raised by `RX.CHUNK` and `FRM.UNPACK`. Safe: the spec asks for it. -/
  | carryOverflow
  /-- An internal operation presented where nothing of the spec starts it: a frame-type operation in a mode it does not
  exist in or with a header its mode does not have (44_reliability.md, R57, R180), `FRM.UNPACK` with `FRAMING_EN = 0`
  (R88), `WAIT.POLL` of an idle slot (R175). Safe: no agent reaches it. -/
  | notStarted
  /-- An operation identifier outside R88. Raised by `step`. Safe: no agent presents it. -/
  | illegalIdentifier
  /-- An operand of an operation that is no host command, outside its type (R88). Raised by `step`. Safe: no agent
  presents it. -/
  | operandRange
deriving DecidableEq, Repr

/-- The state right after reset of a block with these parameters (R7, R40, R260); no agent has presented anything and
nothing has left the block. -/
def State.resetWith (params : Params) : State :=
  { cfg := { framingEn := true, verifyEn := true, relMode := .off }
    rxClosed := false
    seq := 0
    timeoutDefault := 5000
    now := 0
    carry := []
    pend := Vector.replicate 256 none
    wait := Vector.replicate 256 .idle
    params := params
    inbox := []
    answers := []
    freeAnswers := 0
    out := [] }

/-- The state right after reset with the default parameters: both capacities unbounded (R7), the version free (log 1). -/
def State.reset : State := State.resetWith Config.params

end Sys2Proof.Machine
end

