-- ==== Sys2Proof/Machine/Cobs.lean ====
section
/-! DEFINITION. The COBS codec and the framer (40_framing.md R100 to R115): `CobsEncode`, `CobsDecode`, `FramePack`,
`FrameUnpack`. Pure functions; the carry-over buffer is an argument. -/

namespace Sys2Proof.Machine

/-- `DELIM`, the frame terminator (R5). -/
def delim : Byte := 0x00

/-- The code byte of a block that holds `block` (R101). -/
def cobsCode (block : Bytes) : Byte := BitVec.ofNat 8 (block.length + 1)

/-- The loop of `CobsEncode` (R101) over the bytes still to read: `block` is the block being built, `finalZero` is true
while a closing block is owed. -/
def cobsEncodeFrom (block : Bytes) (finalZero : Bool) : Bytes → Bytes
  | [] => if 0 < block.length || finalZero then cobsCode block :: block else []
  | b :: rest =>
    if b = 0x00 then cobsCode block :: (block ++ cobsEncodeFrom [] true rest)
    else if (block ++ [b]).length = 254 then 0xFF :: ((block ++ [b]) ++ cobsEncodeFrom [] false rest)
    else cobsEncodeFrom (block ++ [b]) finalZero rest

/-- `CobsEncode(p)` (R101). -/
def cobsEncode (p : Bytes) : Bytes := cobsEncodeFrom [] true p

/-- The loop of `CobsDecode` (R105) over the bytes still to read: `need` data bytes of the current block are still to
come, and `zeroDue` says that its code was not 0xFF, so that a zero follows it unless it is the last block. -/
def cobsDecodeFrom (zeroDue : Bool) : Nat → Bytes → Except FramingReason Bytes
  | 0, [] => .ok []
  | _ + 1, [] => .error .truncatedBlock
  | 0, code :: rest =>
    match cobsDecodeFrom (code != 0xFF) (code.toNat - 1) rest with
    | .ok out => .ok (if zeroDue then 0x00 :: out else out)
    | .error e => .error e
  | need + 1, b :: rest =>
    match cobsDecodeFrom zeroDue need rest with
    | .ok out => .ok (b :: out)
    | .error e => .error e

/-- `CobsDecode(s)` (R105): the zero test, the length test, then the blocks in order. -/
def cobsDecode (s : Bytes) : Except FramingReason Bytes :=
  if s.contains 0x00 then .error .zeroInSegment
  else match s with
    | [] => .error .emptySegment
    | code :: rest => cobsDecodeFrom (code != 0xFF) (code.toNat - 1) rest

/-- `FramePack(p) = CobsEncode(p) || [0x00]` (R108). -/
def framePack (p : Bytes) : Bytes := cobsEncode p ++ [delim]

/-- The cut of a buffer at every 0x00 (R110): the segments before each terminator, and the rest after the last;
`segment` holds the bytes since the last terminator. -/
def cutSegments (segment : Bytes) : Bytes → List Bytes × Bytes
  | [] => ([], segment)
  | b :: rest =>
    if b = delim then (segment :: (cutSegments [] rest).1, (cutSegments [] rest).2)
    else cutSegments (segment ++ [b]) rest

/-- One segment's result (R110). -/
def segmentResult (s : Bytes) : Candidate :=
  match cobsDecode s with
  | .ok p => .ok p
  | .error reason => .err reason s

/-- `FrameUnpack(chunk)` with the carry-over buffer `carry` (R110): the results, and the new carry-over buffer. -/
def frameUnpack (carry chunk : Bytes) : List Candidate × Bytes :=
  let cut := cutSegments [] (carry ++ chunk)
  (cut.1.map segmentResult, cut.2)

end Sys2Proof.Machine
end

