-- ==== Sys2Proof/Machine/Crc.lean ====
section
/-! DEFINITION. The CRC-16 and the verification codec (41_verification.md R120 to R129). -/

namespace Sys2Proof.Machine

/-- `CRC_POLY` (R5, R120). -/
def crcPoly : BitVec 16 := 0x8005

/-- `CRC_INIT` (R5, R120). -/
def crcInit : BitVec 16 := 0xFFFF

/-- One of the eight shifts of a byte (R121). -/
def crcShift (c : BitVec 16) : BitVec 16 :=
  if c.getLsbD 15 then (c <<< 1) ^^^ crcPoly else c <<< 1

/-- Eight shifts (R121). -/
def crcShift8 (c : BitVec 16) : BitVec 16 :=
  crcShift (crcShift (crcShift (crcShift (crcShift (crcShift (crcShift (crcShift c)))))))

/-- One byte enters at the top of the register (R121). -/
def crcByte (c : BitVec 16) (b : Byte) : BitVec 16 :=
  crcShift8 (c ^^^ (b.setWidth 16 <<< 8))

/-- `Crc16(m)` (R121). -/
def crc16 (m : Bytes) : BitVec 16 := m.foldl crcByte crcInit

/-- `be16(w) = [w[15:8], w[7:0]]` (R8). -/
def be16 (w : BitVec 16) : Bytes := [w.extractLsb' 8 8, w.extractLsb' 0 8]

/-- `VerPack(p) = p || be16(Crc16(p))` (R124). -/
def verPack (p : Bytes) : Bytes := p ++ be16 (crc16 p)

/-- `VerUnpack(x)` (R126): the length test, then the residue test. -/
def verUnpack (x : Bytes) : Except ChecksumReason Bytes :=
  if x.length < 2 then .error .short
  else if crc16 x ≠ 0x0000 then .error .residue
  else .ok (x.take (x.length - 2))

end Sys2Proof.Machine
end

