-- ==== Sys2Proof/WellFormed.lean ====
section
/-! DEFINITION. Well-formed operations. The operand types of `Instr` leave one check: the row `RSPHDR.reserved` stands
for the frame types 4 to 15 only, "the four rows before it take priority" (R79 and the row's note). Values a rule itself
refuses (a channel above 15, a frame type operand above 3, a timeout above 2^31 - 1) are well formed: the operation runs
and reports `ContractViolation` (R85, R238). -/

namespace Sys2Proof

/-- The operation stands for some bits of its row's encoding. -/
def Instr.wf : Instr → Bool
  | .rspHdrReserved _ _ frameType _ _ => decide (4 ≤ frameType.toNat)
  | .nop | .cobsEnc _ | .cobsDec _ | .frmPack _ | .crcGen _ | .verPack _ | .verUnpack _ | .rtPack _ _ _
  | .rtUnpack _ | .rspPack _ _ _ | .rspUnpack _ | .sendNoack _ _ _ | .sendAck _ _ _ _ | .txPlain _ _ _
  | .cfgWr _ | .regRd _ | .regWr _ _ | .reset | .rxChunk _ | .rxClosed | .frmUnpack _ | .rxDataAck _ _ _
  | .rxDataNoack _ _ _ | .rxRespAck _ _ _ | .rxRespNack _ _ _ | .seqNext | .seqNoack | .pendStore _ _ _
  | .pendTake _ | .pendPurge _ | .tick | .waitPoll _ | .rtHdr _ _ | .rspHdrDataAck _ _ _ _
  | .rspHdrDataNoack _ _ _ _ | .rspHdrRespAck _ _ _ _ | .rspHdrRespNack _ _ _ _ => true

end Sys2Proof
end

