-- ==== Sys2Proof/Decode.lean ====
section
/-! DEFINITION. Decoding and encoding. The bits the spec fixes are the 8-bit command codes (R86), the 8-bit operation
identifiers (R88), the routing header byte (R74) and the two bytes of the reliability header (R76); operands travel as
named fields (R85). The decoder is total and rejects by name; the encoder is written from the same tables. -/

namespace Sys2Proof

/-! ### Bit fields of the headers -/

/-- The routing header byte, `VVCCCCQR`: version in bits 7:6, channel in 5:2, request_response in 1, reserved in 0
(R74, R89). -/
def packRtHeader (h : RtHeader) : Byte :=
  (h.version.setWidth 8 <<< 6) ||| (h.channel.setWidth 8 <<< 2) ||| (h.requestResponse.setWidth 8 <<< 1)
    ||| h.reserved.setWidth 8

/-- The fields of a routing header byte: `h[7:6]`, `h[5:2]`, `h[1]`, `h[0]` (R89). -/
def unpackRtHeader (h : Byte) : RtHeader :=
  { version := h.extractLsb' 6 2
    channel := h.extractLsb' 2 4
    requestResponse := h.extractLsb' 1 1
    reserved := h.extractLsb' 0 1 }

/-- Byte 1 of the reliability header: `frame_type` in bits 7:4, `reserved` in bits 3:0 (R76). -/
def packRspByte (frameType reserved : BitVec 4) : Byte :=
  (frameType.setWidth 8 <<< 4) ||| reserved.setWidth 8

/-- `b1[7:4]`, the frame type field (R89). -/
def rspFrameType (b1 : Byte) : BitVec 4 := b1.extractLsb' 4 4

/-- `b1[3:0]`, the reserved field (R89). -/
def rspReserved (b1 : Byte) : BitVec 4 := b1.extractLsb' 0 4

/-- The frame type codes 0 to 3 (R77). -/
def frameTypeCode : FrameType → BitVec 4
  | .dataAck => 0
  | .dataNoack => 1
  | .respAck => 2
  | .respNack => 3

/-- The frame type a code names; 4 to 15 are reserved and name none (R77, R79). -/
def frameTypeOf (code : BitVec 4) : Option FrameType :=
  if code = 0 then some .dataAck
  else if code = 1 then some .dataNoack
  else if code = 2 then some .respAck
  else if code = 3 then some .respNack
  else none

/-! ### The rows of the opcode table -/

/-- A row of spec/opcode_table.json: a selector of `nbits` bits stands for the operation when its bits under `mask`
equal `pattern`. -/
structure OpRow where
  mnemonic : String
  nbits    : Nat
  mask     : Nat
  pattern  : Nat
deriving DecidableEq, Repr

/-- Rows of the format `CMD` (R86). -/
def commandRows : List OpRow :=
  [ ⟨"NOP", 8, 0xFF, 0x00⟩, ⟨"COBS.ENC", 8, 0xFF, 0x01⟩, ⟨"COBS.DEC", 8, 0xFF, 0x02⟩, ⟨"FRM.PACK", 8, 0xFF, 0x03⟩,
    ⟨"CRC.GEN", 8, 0xFF, 0x10⟩, ⟨"VER.PACK", 8, 0xFF, 0x11⟩, ⟨"VER.UNPACK", 8, 0xFF, 0x12⟩,
    ⟨"RT.PACK", 8, 0xFF, 0x20⟩, ⟨"RT.UNPACK", 8, 0xFF, 0x21⟩, ⟨"RSP.PACK", 8, 0xFF, 0x22⟩,
    ⟨"RSP.UNPACK", 8, 0xFF, 0x23⟩, ⟨"SEND.NOACK", 8, 0xFF, 0x40⟩, ⟨"SEND.ACK", 8, 0xFF, 0x41⟩,
    ⟨"TX.PLAIN", 8, 0xFF, 0x48⟩, ⟨"CFG.WR", 8, 0xFF, 0x60⟩, ⟨"REG.RD", 8, 0xFF, 0x61⟩, ⟨"REG.WR", 8, 0xFF, 0x62⟩,
    ⟨"RESET", 8, 0xFF, 0x6F⟩ ]

/-- Rows of the format `OPID` (R88). -/
def operationRows : List OpRow :=
  [ ⟨"RX.CHUNK", 8, 0xFF, 0x80⟩, ⟨"RX.CLOSED", 8, 0xFF, 0x81⟩, ⟨"FRM.UNPACK", 8, 0xFF, 0x82⟩,
    ⟨"RX.DATA_ACK", 8, 0xFF, 0x84⟩, ⟨"RX.DATA_NOACK", 8, 0xFF, 0x85⟩, ⟨"RX.RESP_ACK", 8, 0xFF, 0x86⟩,
    ⟨"RX.RESP_NACK", 8, 0xFF, 0x87⟩, ⟨"SEQ.NEXT", 8, 0xFF, 0x90⟩, ⟨"SEQ.NOACK", 8, 0xFF, 0x91⟩,
    ⟨"PEND.STORE", 8, 0xFF, 0x92⟩, ⟨"PEND.TAKE", 8, 0xFF, 0x93⟩, ⟨"PEND.PURGE", 8, 0xFF, 0x94⟩,
    ⟨"TICK", 8, 0xFF, 0xA0⟩, ⟨"WAIT.POLL", 8, 0xFF, 0xA1⟩ ]

/-- Rows of the wire formats `RTHDR` and `RSPHDR` (R74, R76, R77, R79); the row of reserved frame types is last and the
four before it take priority. -/
def wireRows : List OpRow :=
  [ ⟨"RTHDR", 8, 0x00, 0x00⟩, ⟨"RSPHDR.DATA_ACK", 16, 0x00F0, 0x0000⟩, ⟨"RSPHDR.DATA_NOACK", 16, 0x00F0, 0x0010⟩,
    ⟨"RSPHDR.RESP_ACK", 16, 0x00F0, 0x0020⟩, ⟨"RSPHDR.RESP_NACK", 16, 0x00F0, 0x0030⟩,
    ⟨"RSPHDR.reserved", 16, 0x0000, 0x0000⟩ ]

/-- A selector's bits under the row's mask are the row's pattern. -/
def OpRow.selects (r : OpRow) (nbits w : Nat) : Bool :=
  r.nbits == nbits && (w &&& r.mask) == r.pattern

/-! ### The decoder -/

/-- Why a transaction selects no operation. -/
inductive DecodeError where
  /-- A code that is no command's: 0x00 to 0x7F outside R86, and 0x80 to 0xFF (R87). -/
  | illegalCommand
  /-- An identifier outside R88; no agent starts such an operation. -/
  | illegalIdentifier
  /-- A field outside its type (R85, R238 `field_range`). -/
  | fieldRange
deriving DecidableEq, Repr

/-- A field of type `u<w>`: the value presented, or a refusal when it does not fit (R85). -/
def fieldOf (w n : Nat) : Except DecodeError (BitVec w) :=
  if n < 2 ^ w then .ok (BitVec.ofNat w n) else .error .fieldRange

/-- A host command (R86); the operands in the order of its row. A channel, a timeout and the value of `REG.WR` pass as
they are: what R238 says of one out of range is the meaning's to answer. -/
def decodeCommand (code : Byte) (a : Args) : Except DecodeError Instr :=
  match code.toNat with
  | 0x00 => .ok .nop
  | 0x01 => .ok (.cobsEnc a.bytes)
  | 0x02 => .ok (.cobsDec a.bytes)
  | 0x03 => .ok (.frmPack a.bytes)
  | 0x10 => .ok (.crcGen a.bytes)
  | 0x11 => .ok (.verPack a.bytes)
  | 0x12 => .ok (.verUnpack a.bytes)
  | 0x20 => do return .rtPack a.bytes a.channel (← fieldOf 1 a.requestResponse)
  | 0x21 => .ok (.rtUnpack a.bytes)
  | 0x22 => do return .rspPack (← fieldOf 8 a.sequence) (← fieldOf 8 a.frameType) a.bytes
  | 0x23 => .ok (.rspUnpack a.bytes)
  | 0x40 => do return .sendNoack a.bytes a.channel (← fieldOf 1 a.requestResponse)
  | 0x41 => do return .sendAck a.bytes a.timeout a.channel (← fieldOf 1 a.requestResponse)
  | 0x48 => do return .txPlain a.channel (← fieldOf 1 a.requestResponse) a.bytes
  | 0x60 => do return .cfgWr (← fieldOf 8 a.value)
  | 0x61 => do return .regRd (← fieldOf 8 a.number)
  | 0x62 => do return .regWr (← fieldOf 8 a.number) a.value
  | 0x6F => .ok .reset
  | _ => .error .illegalCommand

/-- An operation that is no host command (R88). -/
def decodeOperation (identifier : Byte) (a : Args) : Except DecodeError Instr :=
  match identifier.toNat with
  | 0x80 => .ok (.rxChunk a.bytes)
  | 0x81 => .ok .rxClosed
  | 0x82 => .ok (.frmUnpack a.bytes)
  | 0x84 => do return .rxDataAck (← fieldOf 8 a.sequence) (a.header.map unpackRtHeader) a.bytes
  | 0x85 => do return .rxDataNoack (← fieldOf 8 a.sequence) (a.header.map unpackRtHeader) a.bytes
  | 0x86 => do return .rxRespAck (← fieldOf 8 a.sequence) (a.header.map unpackRtHeader) a.bytes
  | 0x87 => do return .rxRespNack (← fieldOf 8 a.sequence) (a.header.map unpackRtHeader) a.bytes
  | 0x90 => .ok .seqNext
  | 0x91 => .ok .seqNoack
  | 0x92 => do return .pendStore (← fieldOf 8 a.sequence) a.response a.bytes
  | 0x93 => do return .pendTake (← fieldOf 8 a.sequence)
  | 0x94 => do return .pendPurge (← fieldOf 8 a.sequence)
  | 0xA0 => .ok .tick
  | 0xA1 => do return .waitPoll (← fieldOf 8 a.sequence)
  | _ => .error .illegalIdentifier

/-- A received reliability header: byte 0 is the sequence number, bits 7:4 of byte 1 select the row (R76, R77, R79). -/
def decodeRspHeader (route : Option RtHeader) (b0 b1 : Byte) (payload : Bytes) : Instr :=
  match frameTypeOf (rspFrameType b1) with
  | some .dataAck => .rspHdrDataAck route b0 (rspReserved b1) payload
  | some .dataNoack => .rspHdrDataNoack route b0 (rspReserved b1) payload
  | some .respAck => .rspHdrRespAck route b0 (rspReserved b1) payload
  | some .respNack => .rspHdrRespNack route b0 (rspReserved b1) payload
  | none => .rspHdrReserved route b0 (rspFrameType b1) (rspReserved b1) payload

/-- The operation a transaction selects; total, rejecting by name. -/
def decode : Transaction → Except DecodeError Instr
  | .cmd code a => decodeCommand code a
  | .op identifier a => decodeOperation identifier a
  | .rt h payload => .ok (.rtHdr (unpackRtHeader h) payload)
  | .rsp route b0 b1 payload => .ok (decodeRspHeader (route.map unpackRtHeader) b0 b1 payload)

/-! ### The encoder -/

/-- A received body with a reliability header, as a transaction (R76). -/
def encodeRspHeader (route : Option RtHeader) (q : SeqNo) (frameType reserved : BitVec 4) (payload : Bytes) :
    Transaction :=
  .rsp (route.map packRtHeader) q (packRspByte frameType reserved) payload

/-- The transaction that selects an operation, from the tables of R74, R76, R77, R86 and R88. -/
def encode : Instr → Transaction
  | .nop => .cmd 0x00 {}
  | .cobsEnc p => .cmd 0x01 { bytes := p }
  | .cobsDec p => .cmd 0x02 { bytes := p }
  | .frmPack p => .cmd 0x03 { bytes := p }
  | .crcGen p => .cmd 0x10 { bytes := p }
  | .verPack p => .cmd 0x11 { bytes := p }
  | .verUnpack p => .cmd 0x12 { bytes := p }
  | .rtPack p ch rr => .cmd 0x20 { bytes := p, channel := ch, requestResponse := rr.toNat }
  | .rtUnpack p => .cmd 0x21 { bytes := p }
  | .rspPack q ft p => .cmd 0x22 { bytes := p, sequence := q.toNat, frameType := ft.toNat }
  | .rspUnpack p => .cmd 0x23 { bytes := p }
  | .sendNoack p ch rr => .cmd 0x40 { bytes := p, channel := ch, requestResponse := rr.toNat }
  | .sendAck p t ch rr => .cmd 0x41 { bytes := p, timeout := t, channel := ch, requestResponse := rr.toNat }
  | .txPlain ch rr p => .cmd 0x48 { bytes := p, channel := ch, requestResponse := rr.toNat }
  | .cfgWr v => .cmd 0x60 { value := v.toNat }
  | .regRd n => .cmd 0x61 { number := n.toNat }
  | .regWr n v => .cmd 0x62 { number := n.toNat, value := v }
  | .reset => .cmd 0x6F {}
  | .rxChunk b => .op 0x80 { bytes := b }
  | .rxClosed => .op 0x81 {}
  | .frmUnpack b => .op 0x82 { bytes := b }
  | .rxDataAck q h d => .op 0x84 { bytes := d, sequence := q.toNat, header := h.map packRtHeader }
  | .rxDataNoack q h d => .op 0x85 { bytes := d, sequence := q.toNat, header := h.map packRtHeader }
  | .rxRespAck q h d => .op 0x86 { bytes := d, sequence := q.toNat, header := h.map packRtHeader }
  | .rxRespNack q h d => .op 0x87 { bytes := d, sequence := q.toNat, header := h.map packRtHeader }
  | .seqNext => .op 0x90 {}
  | .seqNoack => .op 0x91 {}
  | .pendStore q ft d => .op 0x92 { bytes := d, sequence := q.toNat, response := ft }
  | .pendTake q => .op 0x93 { sequence := q.toNat }
  | .pendPurge q => .op 0x94 { sequence := q.toNat }
  | .tick => .op 0xA0 {}
  | .waitPoll q => .op 0xA1 { sequence := q.toNat }
  | .rtHdr h p => .rt (packRtHeader h) p
  | .rspHdrDataAck h q rv p => encodeRspHeader h q (frameTypeCode .dataAck) rv p
  | .rspHdrDataNoack h q rv p => encodeRspHeader h q (frameTypeCode .dataNoack) rv p
  | .rspHdrRespAck h q rv p => encodeRspHeader h q (frameTypeCode .respAck) rv p
  | .rspHdrRespNack h q rv p => encodeRspHeader h q (frameTypeCode .respNack) rv p
  | .rspHdrReserved h q ft rv p => encodeRspHeader h q ft rv p

/-- The selector bits of a transaction, as the opcode table numbers them: one byte for a command, an identifier and a
routing header; byte 0 then byte 1 of a reliability header, most significant first (R76). -/
def selectorOf : Transaction → Nat × Nat
  | .cmd code _ => (8, code.toNat)
  | .op identifier _ => (8, identifier.toNat)
  | .rt h _ => (8, h.toNat)
  | .rsp _ b0 b1 _ => (16, b0.toNat * 256 + b1.toNat)

/-! ### The opcode table's words -/

/-- The transaction whose selector bits are `w`, every operand zero (log 4). A byte that is a command code or an
operation identifier selects that row, any other byte the row `RTHDR`, whose mask is empty; 16 bits are a reliability
header, byte 0 in the upper half as the table numbers them. -/
def tableTransaction (nbits w : Nat) : Option Transaction :=
  if nbits = 8 ∧ w < 2 ^ 8 then
    if (commandRows.any fun r => r.selects nbits w) then some (.cmd (BitVec.ofNat 8 w) {})
    else if (operationRows.any fun r => r.selects nbits w) then some (.op (BitVec.ofNat 8 w) {})
    else some (.rt (BitVec.ofNat 8 w) [])
  else if nbits = 16 ∧ w < 2 ^ 16 then
    some (.rsp none (BitVec.ofNat 8 (w / 256)) (BitVec.ofNat 8 w) [])
  else none

/-- The operation the decoder reads from a row's word of the opcode table. -/
def decodeTableWord (nbits w : Nat) : Option Instr :=
  match tableTransaction nbits w with
  | none => none
  | some t =>
    match decode t with
    | .ok i => some i
    | .error _ => none

/-! ### Pseudo-operations (00_scope.md R12, R91): the document's API names, each with its expansion -/

/-- `transmit(channel, payload)`: `TX.PLAIN` with the flag 0 (R91, R205). -/
def transmit (channel : Nat) (payload : Bytes) : Instr := .txPlain channel 0 payload

/-- The issuing half of `send_with_ack(data, timeout)`: `SEND.ACK`; the other half is the `DONE` event of the number it
returns (R52, R91). The channel and the flag, which the alias does not name, are used in `ABOVE` mode only (R172). -/
def sendWithAck (data : Bytes) (timeout : Option Nat) (channel : Nat) (requestResponse : BitVec 1) : Instr :=
  .sendAck data timeout channel requestResponse

/-- `send(data, request_ack = false)`: `SEND.NOACK` (R91). -/
def sendWithoutAck (data : Bytes) (channel : Nat) (requestResponse : BitVec 1) : Instr :=
  .sendNoack data channel requestResponse

/-- `framing.pack(p)` (R91). -/
def framingPack (p : Bytes) : Instr := .frmPack p

/-- `framing.unpack(chunk)`, no host command (R12, R110). -/
def framingUnpack (chunk : Bytes) : Instr := .frmUnpack chunk

/-- `verification.pack(p)` (R91). -/
def verificationPack (p : Bytes) : Instr := .verPack p

/-- `verification.unpack(x)` (R91). -/
def verificationUnpack (x : Bytes) : Instr := .verUnpack x

/-- `routing.pack(p, channel, flag)` (R91). -/
def routingPack (p : Bytes) (channel : Nat) (flag : BitVec 1) : Instr := .rtPack p channel flag

/-- `routing.unpack(x)` (R91). -/
def routingUnpack (x : Bytes) : Instr := .rtUnpack x

end Sys2Proof
end

