-- ==== Sys2Proof/Machine/Flags.lean ====
section
/-! DEFINITION. The block has no condition codes and no sticky flags (10_state.md R24). What stands in their place is the
numbering of outcomes: every operation reports a status code and a reason (60_exceptions.md R231). -/

namespace Sys2Proof.Machine

/-- The code of an error outcome (R231). -/
def Err.code : Err → Nat
  | .framing _ => 1
  | .checksum _ => 2
  | .protocolVersion _ => 3
  | .timeout => 4
  | .transport => 5
  | .malformed _ => 6
  | .contract _ => 7
  | .busy _ => 8

/-- The status code: `OK` is 0 (R51, R231). -/
def Status.code : Status → Nat
  | .ok => 0
  | .error e => e.code

/-- The sub-code of `FramingError` (R231). -/
def framingReasonCode : FramingReason → Nat
  | .zeroInSegment => 1
  | .emptySegment => 2
  | .truncatedBlock => 3

/-- The sub-code of `ChecksumError` (R231). -/
def checksumReasonCode : ChecksumReason → Nat
  | .short => 1
  | .residue => 2

/-- The sub-code of `MalformedPacket` (R231). -/
def malformedReasonCode : MalformedReason → Nat
  | .shortHeader => 1
  | .badFrameType => 2

/-- The sub-code of `ContractViolation` (R231). -/
def contractReasonCode : ContractReason → Nat
  | .illegalCommand => 1
  | .channelRange => 2
  | .frameTypeRange => 3
  | .mode => 4
  | .timeoutRange => 5
  | .cfgReserved => 6
  | .registerNumber => 7
  | .readOnly => 8
  | .fieldRange => 9

/-- The reason reported with an error outcome (R231): a sub-code, the version received, or the busy sequence number;
`TimeoutError` and `TransportError` have none. -/
def Err.reason : Err → Option Nat
  | .framing r => some (framingReasonCode r)
  | .checksum r => some (checksumReasonCode r)
  | .protocolVersion got => some got.toNat
  | .timeout => none
  | .transport => none
  | .malformed r => some (malformedReasonCode r)
  | .contract r => some (contractReasonCode r)
  | .busy q => some q.toNat

/-- The error outcome of a command record that selects no command: an illegal code (R87), or a field outside its type
(R85, R238). `decodeCommand` never answers `illegalIdentifier`; a code without a command is illegal whatever the name. -/
def commandError : DecodeError → Err
  | .illegalCommand => .contract .illegalCommand
  | .illegalIdentifier => .contract .illegalCommand
  | .fieldRange => .contract .fieldRange

end Sys2Proof.Machine
end

