-- ==== Sys2Proof/Machine/Headers.lean ====
section
/-! DEFINITION. The header marshaller (42_headers.md R135 to R148). Pure functions; the parameter `PROTOCOL_VERSION` is an
argument. -/

namespace Sys2Proof.Machine

/-- The header the block transmits: its own version, the reserved bit 0 (R75, R78, R89). -/
def ownRtHeader (version : BitVec 2) (channel : BitVec 4) (rr : BitVec 1) : RtHeader :=
  { version := version, channel := channel, requestResponse := rr, reserved := 0 }

/-- A channel operand in its 4-bit field, or `ContractViolation(channel_range)`; never masked (R137). -/
def channelOf (channel : Nat) : Except Err (BitVec 4) :=
  if 15 < channel then .error (.contract .channelRange) else .ok (BitVec.ofNat 4 channel)

/-- `RtPack` behind the channel check (R136). -/
def rtFrame (version : BitVec 2) (channel : BitVec 4) (rr : BitVec 1) (p : Bytes) : Bytes :=
  packRtHeader (ownRtHeader version channel rr) :: p

/-- `RtPack(p, ch, rr)` (R136). -/
def rtPack (version : BitVec 2) (p : Bytes) (channel : Nat) (rr : BitVec 1) : Except Err Bytes :=
  match channelOf channel with
  | .error e => .error e
  | .ok ch => .ok (rtFrame version ch rr p)

/-- `RtUnpack(x)` (R139): the length test, then the version test. -/
def rtUnpack (version : BitVec 2) : Bytes → Except Err (RtHeader × Bytes)
  | [] => .error (.malformed .shortHeader)
  | h :: p =>
    if (unpackRtHeader h).version ≠ version then .error (.protocolVersion (unpackRtHeader h).version)
    else .ok (unpackRtHeader h, p)

/-- The two bytes of a reliability header the block transmits, reserved bits 0, then the data (R89, R143). -/
def rspFrame (q : SeqNo) (ft : FrameType) (data : Bytes) : Bytes :=
  q :: packRspByte (frameTypeCode ft) 0 :: data

/-- `RspPack(s, ft, p)` (R143). -/
def rspPack (q : SeqNo) (frameType : BitVec 8) (p : Bytes) : Except Err Bytes :=
  if 3 < frameType.toNat then .error (.contract .frameTypeRange)
  else .ok (q :: packRspByte (frameType.setWidth 4) 0 :: p)

/-- What `RspUnpack` returns: `(s, ft, rv, d)` (R146). -/
structure RspParts where
  sequence  : SeqNo
  frameType : FrameType
  reserved  : BitVec 4
  data      : Bytes
deriving DecidableEq, Repr

/-- `RspUnpack(x)` (R146): the length test, then the frame type test. -/
def rspUnpack : Bytes → Except Err RspParts
  | b0 :: b1 :: d =>
    match frameTypeOf (rspFrameType b1) with
    | some ft => .ok { sequence := b0, frameType := ft, reserved := rspReserved b1, data := d }
    | none => .error (.malformed .badFrameType)
  | [_] => .error (.malformed .shortHeader)
  | [] => .error (.malformed .shortHeader)

end Sys2Proof.Machine
end

