-- ==== Sys2Proof/Machine/Operands.lean ====
section
/-! DEFINITION. Operand forms and register views: the size of a bytes operand (R85), the timeout (R173), the reliability
placement a send uses (R171, R172, R206), the register views of `CFG` and `STATUS` (R25, R28), the 32-bit lengths (R30,
R205), and the table of readable registers (R30). -/

namespace Sys2Proof.Machine

/-- A length is within a capacity; `none` is unbounded (R7). -/
def withinCapacity (capacity : Option Nat) (n : Nat) : Bool :=
  match capacity with
  | none => true
  | some m => decide (n ≤ m)

/-- A bytes operand is within `MAX_PAYLOAD` (R7, R85). -/
def payloadFits (p : Params) (b : Bytes) : Bool := withinCapacity p.maxPayload b.length

/-- A byte sequence cut to `MAX_PAYLOAD` (R7). -/
def cutToPayload (p : Params) (b : Bytes) : Bytes :=
  match p.maxPayload with
  | none => b
  | some m => b.take m

/-- The bytes `PEND[q]` holds for a response with this payload: the payload, whose type is `bytes`, 0 to `MAX_PAYLOAD` of
them (R85, R158); free within that bound where the payload is longer (R161, R279; log 10). -/
def storedData (p : Params) (q : SeqNo) (data : Bytes) : Bytes :=
  if payloadFits p data then data else cutToPayload p (Config.longResponse q data)

/-- A carry-over segment is within `CARRY_CAP` (R34, R112). -/
def carryFits (p : Params) (b : Bytes) : Bool := withinCapacity p.carryCap b.length

/-- The greatest legal timeout, 2^31 - 1 ticks (R32, R173). -/
def timeoutMax : Nat := 2 ^ 31 - 1

/-- The timeout of a `SEND.ACK`: the operand when present, else `TIMEOUT_DEFAULT` (R172). -/
def timeoutOf (timeout : Option Nat) (timeoutDefault : Ticks) : Nat :=
  match timeout with
  | some t => t
  | none => timeoutDefault.toNat

/-- Where the reliability header goes and what stands in front of it: nothing (`BELOW`), or a routing header with this
channel and flag (`ABOVE`) (R202, R203). -/
inductive Route where
  | below
  | above (channel : BitVec 4) (rr : BitVec 1)
deriving DecidableEq, Repr

/-- The placement a `SEND.ACK` or `SEND.NOACK` uses: refused with `mode` when `REL_MODE = OFF`; the channel is checked
in `ABOVE` mode and ignored in `BELOW` (R171, R172), where it still is a `u8` (R85, R238; log 7). -/
def sendRoute (mode : RelMode) (channel : Nat) (rr : BitVec 1) : Except Err Route :=
  match mode with
  | .off => .error (.contract .mode)
  | .below => if 2 ^ 8 ≤ channel then .error (.contract .channelRange) else .ok .below
  | .above =>
    match channelOf channel with
    | .error e => .error e
    | .ok ch => .ok (.above ch rr)

/-- The placement of a response: the request's channel and flag unchanged in `ABOVE` mode, no header in `BELOW`
(R180). -/
def replyRoute : Option RtHeader → Route
  | none => .below
  | some h => .above h.channel h.requestResponse

/-- The body of a reliability frame (R202, R203, R206). -/
def relBody (version : BitVec 2) (route : Route) (q : SeqNo) (ft : FrameType) (data : Bytes) : Bytes :=
  match route with
  | .below => rspFrame q ft data
  | .above ch rr => rtFrame version ch rr (rspFrame q ft data)

/-- The 2-bit code of `REL_MODE` (R25). -/
def relModeCode : RelMode → BitVec 2
  | .off => 0
  | .below => 1
  | .above => 2

/-- The mode a 2-bit code names; 3 is reserved (R25, R220). -/
def relModeOf (code : BitVec 2) : Option RelMode :=
  if code = 0 then some .off
  else if code = 1 then some .below
  else if code = 2 then some .above
  else none

/-- `CFG` as the register reads: bit 0 `FRAMING_EN`, bit 1 `VERIFY_EN`, bits 3:2 `REL_MODE`, bits 7:4 zero (R25). -/
def cfgReg (c : Cfg) : BitVec 8 :=
  ((relModeCode c.relMode).setWidth 8 <<< 2) ||| ((BitVec.ofBool c.verifyEn).setWidth 8 <<< 1)
    ||| (BitVec.ofBool c.framingEn).setWidth 8

/-- The fields a written value gives `CFG`, bits 7:4 ignored; none for the reserved mode (R220). -/
def cfgOf (value : BitVec 8) : Option Cfg :=
  match relModeOf (value.extractLsb' 2 2) with
  | none => none
  | some m => some { framingEn := value.getLsbD 0, verifyEn := value.getLsbD 1, relMode := m }

/-- `verify_eff = (CFG.VERIFY_EN = 1) or (CFG.REL_MODE != OFF)` (R27). -/
def verifyEff (c : Cfg) : Bool := c.verifyEn || c.relMode != .off

/-- `STATUS` as the register reads: bit 0 `RX_CLOSED`, bits 7:1 zero (R28). -/
def statusReg (rxClosed : Bool) : BitVec 8 := (BitVec.ofBool rxClosed).setWidth 8

/-- A length in a 32-bit field (R30 register 7, R205 `size`); free from 2^32 on, where the spec states no value
(log 3). -/
def length32 (n : Nat) : BitVec 32 :=
  if n < 2 ^ 32 then BitVec.ofNat 32 n else Config.wideLength n

/-- `WAIT_COUNT`: the number of busy slots, 0 to 256 (R30 register 8). -/
def waitCount (s : State) : Nat := s.wait.toList.countP fun w => w != .idle

/-- `PEND_COUNT`: the number of entries that are not `empty`, 0 to 256 (R30 register 9). -/
def pendCount (s : State) : Nat := s.pend.toList.countP fun e => e.isSome

/-- The register of a number, zero-extended to 32 bits; 10 to 255 are reserved (R30, R222). -/
def regRead (s : State) (number : BitVec 8) : Option (BitVec 32) :=
  match number.toNat with
  | 0 => some ((cfgReg s.cfg).setWidth 32)
  | 1 => some ((statusReg s.rxClosed).setWidth 32)
  | 2 => some (s.seq.setWidth 32)
  | 3 => some (s.params.protocolVersion.setWidth 32)
  | 4 => some s.timeoutDefault
  | 5 => some (BitVec.ofNat 32 Config.poll)
  | 6 => some s.now
  | 7 => some (length32 s.carry.length)
  | 8 => some (BitVec.ofNat 32 (waitCount s))
  | 9 => some (BitVec.ofNat 32 (pendCount s))
  | _ => none

end Sys2Proof.Machine
end

