-- ==== Sys2Proof/Machine/Ops.lean ====
section
/-! DEFINITION. The operations the meanings share: the ports, the two tables, the sequence tracker, the handler
transaction, the transmit path, the receive path, the timer's poll, and the ONE place where an error outcome is taken,
`fail` for a host command (R240) and `discard` in the receive path (R241). Nothing is saved and nothing is returned from
(R247): there is no return operation beside them. -/

namespace Sys2Proof.Machine

/-- What a meaning answers. -/
abbrev Result := Host.Outcome State Fault Refusal

/-! ### Ports -/

/-- One transfer out of the block, after all earlier ones (R59). -/
def emit (o : Output) (s : State) : State := { s with out := s.out ++ [o] }

/-- The result of a command that succeeds (R51). -/
def reply (f : Fields) (s : State) : State := emit (.result .ok f) s

/-- A host command ends in an error outcome: its result carries the status, and nothing else happens (R240). -/
def fail (e : Err) (s : State) : State := emit (.result (.error e) .none) s

/-- A candidate is dropped in the receive path: one `DISCARD` event with the cause and the offending bytes (R241,
R243). -/
def discard (cause : Err) (raw : Bytes) (s : State) : State := emit (.event (.discard cause raw)) s

/-- `LinkWrite(b)`: one transaction on `LTX` (R53). -/
def linkWrite (b : Bytes) (s : State) : State := emit (.link b) s

/-- What an internal operation run on its own returns to its invoker (log 5). -/
def returned (r : Returned) (s : State) : State := emit (.returned r) s

/-- A command with a bytes operand: refused with `field_range` when the operand is longer than `MAX_PAYLOAD`, before its
own checks (R85, R238; log 7). -/
def withPayload (b : Bytes) (s : State) (run : State) : Result :=
  if payloadFits s.params b then .next run else .next (fail (.contract .fieldRange) s)

/-! ### The tables and the sequence tracker -/

/-- `PEND[q]` (R9, R35). -/
def pendGet (s : State) (q : SeqNo) : Option PendEntry := s.pend[q.toNat]'q.isLt

/-- `PEND[q] <- e` (R9). -/
def pendSet (q : SeqNo) (e : Option PendEntry) (s : State) : State :=
  { s with pend := s.pend.set q.toNat e q.isLt }

/-- `WAIT[q]` (R9, R36). -/
def waitGet (s : State) (q : SeqNo) : Waiter := s.wait[q.toNat]'q.isLt

/-- `WAIT[q] <- w` (R9). -/
def waitSet (q : SeqNo) (w : Waiter) (s : State) : State :=
  { s with wait := s.wait.set q.toNat w q.isLt }

/-- `SeqNext()`: `SEQ <- (SEQ + 1) mod 256`, and the new value (R156). -/
def seqNext (s : State) : SeqNo × State := (s.seq + 1, { s with seq := s.seq + 1 })

/-- `SeqNoAck()`: 0, whatever `SEQ` holds (R157). -/
def seqNoAck : SeqNo := 0

/-- `PendStore(q, ft, data)`: the entry is overwritten (R158) and holds at most `MAX_PAYLOAD` bytes (R161). -/
def pendStore (q : SeqNo) (ft : RespType) (data : Bytes) (s : State) : State :=
  pendSet q (some { frameType := ft, data := storedData s.params q data }) s

/-- `PendTake(q)`: the entry, which is emptied in the same action (R159). -/
def pendTake (q : SeqNo) (s : State) : Option PendEntry × State := (pendGet s q, pendSet q none s)

/-- `PendPurge(q)` (R160). -/
def pendPurge (q : SeqNo) (s : State) : State := pendSet q none s

/-! ### The handler -/

/-- A free answer, its data within `MAX_PAYLOAD` (R57; log 2). -/
def freeAnswer (p : Params) (n : Nat) : Answer :=
  { ok := (Config.handlerAnswer n).ok
    data := cutToPayload p (Config.handlerAnswer n).data }

/-- The answer of the next handler transaction, and the state in which it has been taken: the first waiting answer, or a
free one when none waits, since "the answer is an input that is always supplied" (R57, R276; log 2). -/
def takeAnswer (s : State) : Answer × State :=
  match s.answers with
  | a :: rest => (a, { s with answers := rest })
  | [] => (freeAnswer s.params s.freeAnswers, { s with freeAnswers := s.freeAnswers + 1 })

/-- `Handler(req)`: one transaction on `HND` (R9, R57). -/
def handler (req : HandlerRequest) (s : State) : Answer × State :=
  ((takeAnswer s).1, emit (.handler req (takeAnswer s).1) (takeAnswer s).2)

/-! ### Transmit -/

/-- The unit of a body: with its checksum when `verify_eff`, else as it is (R71, R204). -/
def unitOf (c : Cfg) (body : Bytes) : Bytes := if verifyEff c then verPack body else body

/-- What goes to the link for a body (R204). -/
def wireOf (c : Cfg) (body : Bytes) : Bytes :=
  if c.framingEn then framePack (unitOf c body) else unitOf c body

/-- `TxUnit(body)`: exactly one `LinkWrite` (R204). -/
def txUnit (body : Bytes) (s : State) : State := linkWrite (wireOf s.cfg body) s

/-- `RelSend(s, ft, channel, request_response, data)` (R206). -/
def relSend (route : Route) (q : SeqNo) (ft : FrameType) (data : Bytes) (s : State) : State :=
  txUnit (relBody s.params.protocolVersion route q ft data) s

/-! ### The waiter's poll and the timer -/

/-- The ASCII bytes `Timeout` (R175). -/
def timeoutText : Bytes := [0x54, 0x69, 0x6D, 0x65, 0x6F, 0x75, 0x74]

/-- Elapsed time since `t0`, `(NOW - t0) mod 2^32` (R33). -/
def elapsed (s : State) (t0 : Ticks) : Nat := (s.now - t0).toNat

/-- `WaitPoll(q)` of a slot that is `busy(t0, T)`: the response is looked for before the deadline is tested (R175). -/
def waitPoll (q : SeqNo) (t0 timeout : Ticks) (s : State) : State :=
  match pendTake q s with
  | (some e, s1) =>
    emit (.event (.done q .ok (e.frameType == .ack) e.data)) (waitSet q .idle s1)
  | (none, s1) =>
    if timeout.toNat ≤ elapsed s1 t0 then
      emit (.event (.done q (.error .timeout) false timeoutText)) (waitSet q .idle s1)
    else s1

/-- The poll of slot `q` by a tick: made when the slot is busy and its elapsed time is a multiple of `POLL` (R176,
R226). -/
def pollIfDue (s : State) (q : SeqNo) : State :=
  match waitGet s q with
  | .idle => s
  | .busy t0 timeout => if elapsed s t0 % Config.poll = 0 then waitPoll q t0 timeout s else s

/-- The sequence numbers 0 to 255 in ascending order (R226). -/
def allSequences : List SeqNo := (List.range 256).map (BitVec.ofNat 8)

/-- `TICK()`: time moves on, then every waiter that is due polls, in ascending order (R226). -/
def tickOnce (s : State) : State := allSequences.foldl pollIfDue { s with now := s.now + 1 }

/-! ### Receive -/

/-- `RX.DATA_ACK(s, header, d)`: the handler, then the response with the same sequence number (R180). -/
def onDataAck (q : SeqNo) (header : Option RtHeader) (d : Bytes) (s : State) : State :=
  let r := handler { sequence := q, frameType := .dataAck, header := header, data := d } s
  relSend (replyRoute header) q (if r.1.ok then .respAck else .respNack) r.1.data r.2

/-- `RX.DATA_NOACK(s, header, d)`: the handler, its answer thrown away (R181). -/
def onDataNoack (q : SeqNo) (header : Option RtHeader) (d : Bytes) (s : State) : State :=
  (handler { sequence := q, frameType := .dataNoack, header := header, data := d } s).2

/-- `RX.RESP_ACK(s, header, d)` (R182). -/
def onRespAck (q : SeqNo) (d : Bytes) (s : State) : State := pendStore q .ack d s

/-- `RX.RESP_NACK(s, header, d)` (R183). -/
def onRespNack (q : SeqNo) (d : Bytes) (s : State) : State := pendStore q .nack d s

/-- `Dispatch(ft, s, header, d)` (R209). -/
def dispatch (ft : FrameType) (q : SeqNo) (header : Option RtHeader) (d : Bytes) (s : State) : State :=
  match ft with
  | .dataAck => onDataAck q header d s
  | .dataNoack => onDataNoack q header d s
  | .respAck => onRespAck q d s
  | .respNack => onRespNack q d s

/-- The reliability header of a body, then its operation (R209). -/
def receiveReliability (raw : Bytes) (header : Option RtHeader) (body : Bytes) (s : State) : State :=
  match rspUnpack body with
  | .error e => discard e raw s
  | .ok r => dispatch r.frameType r.sequence header r.data s

/-- Step 2 of `ProcessCandidate`: the headers of a verified body, by mode; `raw` is the whole candidate (R209, R210). -/
def receiveBody (raw body : Bytes) (s : State) : State :=
  match s.cfg.relMode with
  | .off =>
    match rtUnpack s.params.protocolVersion body with
    | .error e => discard e raw s
    | .ok (h, p) => emit (.event (.packet h p)) s
  | .below => receiveReliability raw none body s
  | .above =>
    match rtUnpack s.params.protocolVersion body with
    | .error e => discard e raw s
    | .ok (h, rest) => receiveReliability raw (some h) rest s

/-- `ProcessCandidate(x)`: the checksum when `verify_eff`, then the headers (R209). -/
def processCandidate (x : Bytes) (s : State) : State :=
  if verifyEff s.cfg then
    match verUnpack x with
    | .error reason => discard (.checksum reason) x s
    | .ok body => receiveBody x body s
  else receiveBody x x s

/-- One candidate of a chunk (R208). -/
def processResult (s : State) : Candidate → State
  | .err reason raw => discard (.framing reason) raw s
  | .ok x => processCandidate x s

/-- The candidates of a chunk in order, each to completion (R59, R208). -/
def processAll (l : List Candidate) (s : State) : State := l.foldl processResult s

/-- `FrameUnpack(chunk)` on the state: the results and the state with the new `CARRY`, refused when `CARRY_CAP` is
finite and exceeded (R110, R112). -/
def unpackChunk (chunk : Bytes) (s : State) : Except Refusal (List Candidate × State) :=
  let r := frameUnpack s.carry chunk
  if carryFits s.params r.2 then .ok (r.1, { s with carry := r.2 }) else .error .carryOverflow

/-- An operation the link starts: none occurs while `STATUS.RX_CLOSED = 1` (R28, R55, R208). -/
def whileOpen (s : State) (run : Result) : Result :=
  if s.rxClosed then .refused .linkClosed else run

/-- The frame-type operations exist only in `BELOW` mode, without a routing header, and in `ABOVE` mode, with one
(44_reliability.md, R57, R180 to R183). -/
def headerFits (mode : RelMode) (header : Option RtHeader) : Bool :=
  match mode with
  | .off => false
  | .below => header.isNone
  | .above => header.isSome

/-- A frame-type operation run on its own (log 5). -/
def whileReliable (header : Option RtHeader) (s : State) (run : State) : Result :=
  whileOpen s (if headerFits s.cfg.relMode header then .next run else .refused .notStarted)

/-- A verified body arrives: the header rows of the opcode table. The candidate is the unit the body was taken from
(R71, R209; log 8). -/
def bodyArrives (body : Bytes) (s : State) : Result :=
  whileOpen s (.next (receiveBody (unitOf s.cfg body) body s))

/-- A received body with a reliability header, behind a routing header where there is one (R72, R76). -/
def rspBody (route : Option RtHeader) (q : SeqNo) (frameType reserved : BitVec 4) (payload : Bytes) : Bytes :=
  (route.map packRtHeader).toList ++ q :: packRspByte frameType reserved :: payload

/-! ### Configuration and reset -/

/-- `CFG.WR(value)` (R220); `CFG` keeps its value when the mode is the reserved one. -/
def writeCfg (value : BitVec 8) (s : State) : State :=
  match cfgOf value with
  | none => fail (.contract .cfgReserved) s
  | some c => reply .none { s with cfg := c }

/-- Every piece of state takes its reset value (R40, R224, R260). What is no state of the block stays: the parameters
(R262), what the agents present and have not been served, and what has left the block, which is "not recalled"
(R261 (e)). -/
def resetBlock (s : State) : State :=
  { State.resetWith s.params with
    inbox := s.inbox
    answers := s.answers
    freeAnswers := s.freeAnswers
    out := s.out }

/-! ### Presenting a transaction -/

/-- What must hold for the block to start an operation by itself, set where it does not hold: the link open for what the
link starts, `REL_MODE = BELOW` for a frame with a reliability header, `FRAMING_EN = 1` for `FRM.UNPACK`, a busy slot for
`WAIT.POLL` (R88, R175, R208; log 4). -/
def enable (t : Transaction) (s : State) : State :=
  match decode t with
  | .ok (.rxChunk _) => { s with rxClosed := false }
  | .ok (.frmUnpack _) => { s with rxClosed := false, cfg := { s.cfg with framingEn := true } }
  | .ok (.rxDataAck _ _ _) => { s with rxClosed := false, cfg := { s.cfg with relMode := .below } }
  | .ok (.rxDataNoack _ _ _) => { s with rxClosed := false, cfg := { s.cfg with relMode := .below } }
  | .ok (.rxRespAck _ _ _) => { s with rxClosed := false, cfg := { s.cfg with relMode := .below } }
  | .ok (.rxRespNack _ _ _) => { s with rxClosed := false, cfg := { s.cfg with relMode := .below } }
  | .ok (.rtHdr _ _) => { s with rxClosed := false }
  | .ok (.rspHdrDataAck _ _ _ _) => { s with rxClosed := false, cfg := { s.cfg with relMode := .below } }
  | .ok (.rspHdrDataNoack _ _ _ _) => { s with rxClosed := false, cfg := { s.cfg with relMode := .below } }
  | .ok (.rspHdrRespAck _ _ _ _) => { s with rxClosed := false, cfg := { s.cfg with relMode := .below } }
  | .ok (.rspHdrRespNack _ _ _ _) => { s with rxClosed := false, cfg := { s.cfg with relMode := .below } }
  | .ok (.rspHdrReserved _ _ _ _ _) => { s with rxClosed := false, cfg := { s.cfg with relMode := .below } }
  | .ok (.waitPoll q) =>
    match waitGet s q with
    | .idle => waitSet q (.busy s.now s.timeoutDefault) s
    | .busy _ _ => s
  | _ => s

/-- A transaction placed where the block takes its next one. -/
def present (t : Transaction) (s : State) : State := { s with inbox := .transaction t :: s.inbox }

end Sys2Proof.Machine
end

