-- ==== Sys2Proof/Machine/Framing.lean ====
section
/-! DEFINITION. The framing operations: COBS.ENC, COBS.DEC, FRM.PACK, FRM.UNPACK (40_framing.md). -/

namespace Sys2Proof.Machine

/-- `COBS.ENC` (R101). -/
def execCobsEnc (payload : Bytes) (s : State) : Result :=
  withPayload payload s (reply (.bytes (cobsEncode payload)) s)

/-- `COBS.DEC` (R105, R106). -/
def execCobsDec (segment : Bytes) (s : State) : Result :=
  withPayload segment s
    (match cobsDecode segment with
     | .ok p => reply (.bytes p) s
     | .error reason => fail (.framing reason) s)

/-- `FRM.PACK` (R108). -/
def execFrmPack (payload : Bytes) (s : State) : Result :=
  withPayload payload s (reply (.bytes (framePack payload)) s)

/-- `FRM.UNPACK` run on its own (R110, log 5): `CARRY` is updated and the results are returned. It runs only inside
`RX.CHUNK`, with `FRAMING_EN = 1` (R88). -/
def execFrmUnpack (chunk : Bytes) (s : State) : Result :=
  whileOpen s
    (if s.cfg.framingEn then
      match unpackChunk chunk s with
      | .ok (l, s1) => .next (returned (.candidates l) s1)
      | .error r => .refused r
    else .refused .notStarted)

end Sys2Proof.Machine
end

