-- ==== Sys2Proof/Machine/Marshaller.lean ====
section
/-! DEFINITION. The header marshaller's operations: RT.PACK, RT.UNPACK, RSP.PACK, RSP.UNPACK (42_headers.md). -/

namespace Sys2Proof.Machine

/-- `RT.PACK` (R136, R137). -/
def execRtPack (payload : Bytes) (channel : Nat) (rr : BitVec 1) (s : State) : Result :=
  withPayload payload s
    (match rtPack s.params.protocolVersion payload channel rr with
     | .ok framed => reply (.bytes framed) s
     | .error e => fail e s)

/-- `RT.UNPACK` (R139). -/
def execRtUnpack (framed : Bytes) (s : State) : Result :=
  withPayload framed s
    (match rtUnpack s.params.protocolVersion framed with
     | .ok (h, p) =>
       reply (.routing (h.version.setWidth 8) (h.channel.setWidth 8) h.requestResponse h.reserved p) s
     | .error e => fail e s)

/-- `RSP.PACK` (R143); `SEQ` is not touched. -/
def execRspPack (q : SeqNo) (frameType : BitVec 8) (payload : Bytes) (s : State) : Result :=
  withPayload payload s
    (match rspPack q frameType payload with
     | .ok framed => reply (.bytes framed) s
     | .error e => fail e s)

/-- `RSP.UNPACK` (R146). -/
def execRspUnpack (framed : Bytes) (s : State) : Result :=
  withPayload framed s
    (match rspUnpack framed with
     | .ok r =>
       reply (.reliability r.sequence ((frameTypeCode r.frameType).setWidth 8) (r.reserved.setWidth 8) r.data) s
     | .error e => fail e s)

end Sys2Proof.Machine
end

