-- ==== Sys2Proof/Machine/Pipeline.lean ====
section
/-! DEFINITION. The transmit and receive pipeline: TX.PLAIN, RX.CHUNK, RX.CLOSED (45_pipeline.md, 20_memory.md R55), and
the rows of the wire headers (30_encoding.md R74 to R79). -/

namespace Sys2Proof.Machine

/-- `TX.PLAIN` (R205): the mode test, the channel test, then one frame; the result is the number of bytes given to the
link. -/
def execTxPlain (channel : Nat) (rr : BitVec 1) (payload : Bytes) (s : State) : Result :=
  withPayload payload s
    (if s.cfg.relMode != .off then fail (.contract .mode) s
     else match rtPack s.params.protocolVersion payload channel rr with
       | .error e => fail e s
       | .ok body => reply (.size (length32 (wireOf s.cfg body).length)) (txUnit body s))

/-- `RX.CHUNK` (R208): the framer's candidates, or the whole chunk when framing is off, each processed in order. -/
def execRxChunk (chunk : Bytes) (s : State) : Result :=
  whileOpen s
    (if s.cfg.framingEn then
      match unpackChunk chunk s with
      | .ok (l, s1) => .next (processAll l s1)
      | .error r => .refused r
    else .next (processAll [.ok chunk] s))

/-- `RX.CLOSED` (R55): `STATUS.RX_CLOSED <- 1`, nothing else. -/
def execRxClosed (s : State) : Result := .next { s with rxClosed := true }

/-- `RTHDR` (R74, R139, R209): a verified body begins with this routing header. -/
def execRtHdr (header : RtHeader) (payload : Bytes) (s : State) : Result :=
  bodyArrives (packRtHeader header :: payload) s

/-- `RSPHDR.DATA_ACK` (R76, R180, R209). -/
def execRspHdrDataAck (route : Option RtHeader) (q : SeqNo) (reserved : BitVec 4) (payload : Bytes) (s : State) :
    Result :=
  bodyArrives (rspBody route q (frameTypeCode .dataAck) reserved payload) s

/-- `RSPHDR.DATA_NOACK` (R76, R181, R209). -/
def execRspHdrDataNoack (route : Option RtHeader) (q : SeqNo) (reserved : BitVec 4) (payload : Bytes) (s : State) :
    Result :=
  bodyArrives (rspBody route q (frameTypeCode .dataNoack) reserved payload) s

/-- `RSPHDR.RESP_ACK` (R76, R182, R209). -/
def execRspHdrRespAck (route : Option RtHeader) (q : SeqNo) (reserved : BitVec 4) (payload : Bytes) (s : State) :
    Result :=
  bodyArrives (rspBody route q (frameTypeCode .respAck) reserved payload) s

/-- `RSPHDR.RESP_NACK` (R76, R183, R209). -/
def execRspHdrRespNack (route : Option RtHeader) (q : SeqNo) (reserved : BitVec 4) (payload : Bytes) (s : State) :
    Result :=
  bodyArrives (rspBody route q (frameTypeCode .respNack) reserved payload) s

/-- `RSPHDR.reserved` (R79, R146, R209): the candidate is dropped with `MalformedPacket(bad_frame_type)`. -/
def execRspHdrReserved (route : Option RtHeader) (q : SeqNo) (frameType reserved : BitVec 4) (payload : Bytes)
    (s : State) : Result :=
  bodyArrives (rspBody route q frameType reserved payload) s

end Sys2Proof.Machine
end

