-- ==== Sys2Proof/Machine/Reliability.lean ====
section
/-! DEFINITION. The reliability engine: SEND.NOACK, SEND.ACK, WAIT.POLL, RX.DATA_ACK, RX.DATA_NOACK, RX.RESP_ACK,
RX.RESP_NACK (44_reliability.md). -/

namespace Sys2Proof.Machine

/-- `SEND.NOACK` (R171): the mode test, the channel test in `ABOVE` mode, then one frame and success at once. -/
def execSendNoack (data : Bytes) (channel : Nat) (rr : BitVec 1) (s : State) : Result :=
  withPayload data s
    (match sendRoute s.cfg.relMode channel rr with
     | .error e => fail e s
     | .ok route => reply (.sent 1 []) (relSend route seqNoAck .dataNoack data s))

/-- `SEND.ACK` from the allocation on (R172): `SeqNext`, `PendPurge`, the busy slot, the frame, the poll at elapsed time
0, the result. -/
def issueRequest (route : Route) (data : Bytes) (timeout : Ticks) (s : State) : State :=
  let q := (seqNext s).1
  let s1 := pendPurge q (seqNext s).2
  let s2 := waitSet q (.busy s1.now timeout) s1
  let s3 := relSend route q .dataAck data s2
  reply (.sequence q) (waitPoll q s2.now timeout s3)

/-- `SEND.ACK` (R172): the mode test, the channel test in `ABOVE` mode, the timeout's range, the slot, then the
request. -/
def execSendAck (data : Bytes) (timeout : Option Nat) (channel : Nat) (rr : BitVec 1) (s : State) : Result :=
  withPayload data s
    (match sendRoute s.cfg.relMode channel rr with
     | .error e => fail e s
     | .ok route =>
       if timeoutMax < timeoutOf timeout s.timeoutDefault then fail (.contract .timeoutRange) s
       else match waitGet s (s.seq + 1) with
         | .busy _ _ => fail (.busy (s.seq + 1)) s
         | .idle => issueRequest route data (BitVec.ofNat 32 (timeoutOf timeout s.timeoutDefault)) s)

/-- `WAIT.POLL` run on its own (R175, log 5): it requires the slot to be busy. -/
def execWaitPoll (q : SeqNo) (s : State) : Result :=
  match waitGet s q with
  | .busy t0 timeout => .next (waitPoll q t0 timeout s)
  | .idle => .refused .notStarted

/-- `RX.DATA_ACK` (R180). -/
def execRxDataAck (q : SeqNo) (header : Option RtHeader) (d : Bytes) (s : State) : Result :=
  whileReliable header s (onDataAck q header d s)

/-- `RX.DATA_NOACK` (R181). -/
def execRxDataNoack (q : SeqNo) (header : Option RtHeader) (d : Bytes) (s : State) : Result :=
  whileReliable header s (onDataNoack q header d s)

/-- `RX.RESP_ACK` (R182). -/
def execRxRespAck (q : SeqNo) (header : Option RtHeader) (d : Bytes) (s : State) : Result :=
  whileReliable header s (onRespAck q d s)

/-- `RX.RESP_NACK` (R183). -/
def execRxRespNack (q : SeqNo) (header : Option RtHeader) (d : Bytes) (s : State) : Result :=
  whileReliable header s (onRespNack q d s)

end Sys2Proof.Machine
end

