-- ==== Sys2Proof/Machine/System.lean ====
section
/-! DEFINITION. The system operations: CFG.WR, REG.RD, REG.WR, RESET, NOP, TICK (46_system.md). -/

namespace Sys2Proof.Machine

/-- `NOP` (R225). -/
def execNop (s : State) : Result := .next (reply .none s)

/-- `CFG.WR` (R220). -/
def execCfgWr (value : BitVec 8) (s : State) : Result := .next (writeCfg value s)

/-- `REG.RD` (R222); a read has no side effect. -/
def execRegRd (number : BitVec 8) (s : State) : Result :=
  match regRead s number with
  | some v => .next (reply (.value v) s)
  | none => .next (fail (.contract .registerNumber) s)

/-- `REG.WR` (R223): register 4 after the range test of a timeout, which is the only test of its value (R238); for the
others a value that is no `u32` is `field_range` (R85; log 7), then register 0 as `CFG.WR` of the low byte, 1 to 3 and 5 to 9
refused as read-only, 10 to 255 refused. -/
def execRegWr (number : BitVec 8) (value : Nat) (s : State) : Result :=
  if number.toNat = 4 then
    if timeoutMax < value then .next (fail (.contract .timeoutRange) s)
    else .next (reply .none { s with timeoutDefault := BitVec.ofNat 32 value })
  else if 2 ^ 32 ≤ value then .next (fail (.contract .fieldRange) s)
  else if number.toNat = 0 then .next (writeCfg (BitVec.ofNat 8 value) s)
  else if number.toNat ≤ 9 then .next (fail (.contract .readOnly) s)
  else .next (fail (.contract .registerNumber) s)

/-- `RESET` (R224, R260): every piece of state takes its reset value; the command returns `OK`. -/
def execReset (s : State) : Result := .next (reply .none (resetBlock s))

/-- `TICK` (R226). -/
def execTick (s : State) : Result := .next (tickOnce s)

end Sys2Proof.Machine
end

