-- ==== Sys2Proof/Machine/Tracker.lean ====
section
/-! DEFINITION. The sequence tracker's operations run on their own: SEQ.NEXT, SEQ.NOACK, PEND.STORE, PEND.TAKE,
PEND.PURGE (43_sequence.md, log 5). Each is a part of the operation that invokes it; here its effect on `SEQ` or `PEND`
stands alone, with what it returns. -/

namespace Sys2Proof.Machine

/-- `SEQ.NEXT` (R156). -/
def execSeqNext (s : State) : Result :=
  .next (returned (.sequence (seqNext s).1) (seqNext s).2)

/-- `SEQ.NOACK` (R157). -/
def execSeqNoack (s : State) : Result :=
  .next (returned (.sequence seqNoAck) s)

/-- `PEND.STORE` (R158); it returns nothing. -/
def execPendStore (q : SeqNo) (ft : RespType) (data : Bytes) (s : State) : Result :=
  .next (pendStore q ft data s)

/-- `PEND.TAKE` (R159). -/
def execPendTake (q : SeqNo) (s : State) : Result :=
  .next (returned (.entry (pendTake q s).1) (pendTake q s).2)

/-- `PEND.PURGE` (R160); it returns nothing. -/
def execPendPurge (q : SeqNo) (s : State) : Result :=
  .next (pendPurge q s)

end Sys2Proof.Machine
end

