-- ==== Sys2Proof/Machine/Verification.lean ====
section
/-! DEFINITION. The verification operations: CRC.GEN, VER.PACK, VER.UNPACK (41_verification.md). -/

namespace Sys2Proof.Machine

/-- `CRC.GEN` (R121). -/
def execCrcGen (data : Bytes) (s : State) : Result :=
  withPayload data s (reply (.crc (crc16 data)) s)

/-- `VER.PACK` (R124). -/
def execVerPack (payload : Bytes) (s : State) : Result :=
  withPayload payload s (reply (.bytes (verPack payload)) s)

/-- `VER.UNPACK` (R126). -/
def execVerUnpack (wire : Bytes) (s : State) : Result :=
  withPayload wire s
    (match verUnpack wire with
     | .ok p => reply (.bytes p) s
     | .error reason => fail (.checksum reason) s)

end Sys2Proof.Machine
end

