-- ==== Sys2Proof/Machine/Dispatch.lean ====
section
/-! DEFINITION. One arm per operation, in the opcode table's order. -/

namespace Sys2Proof.Machine

def exec (i : Instr) (s : State) : Host.Outcome State Fault Refusal :=
  match i with
  | .nop => Sys2Proof.Machine.execNop s
  | .cobsEnc p => Sys2Proof.Machine.execCobsEnc p s
  | .cobsDec p => Sys2Proof.Machine.execCobsDec p s
  | .frmPack p => Sys2Proof.Machine.execFrmPack p s
  | .crcGen p => Sys2Proof.Machine.execCrcGen p s
  | .verPack p => Sys2Proof.Machine.execVerPack p s
  | .verUnpack p => Sys2Proof.Machine.execVerUnpack p s
  | .rtPack p ch rr => Sys2Proof.Machine.execRtPack p ch rr s
  | .rtUnpack p => Sys2Proof.Machine.execRtUnpack p s
  | .rspPack q ft p => Sys2Proof.Machine.execRspPack q ft p s
  | .rspUnpack p => Sys2Proof.Machine.execRspUnpack p s
  | .sendNoack p ch rr => Sys2Proof.Machine.execSendNoack p ch rr s
  | .sendAck p t ch rr => Sys2Proof.Machine.execSendAck p t ch rr s
  | .txPlain ch rr p => Sys2Proof.Machine.execTxPlain ch rr p s
  | .cfgWr v => Sys2Proof.Machine.execCfgWr v s
  | .regRd n => Sys2Proof.Machine.execRegRd n s
  | .regWr n v => Sys2Proof.Machine.execRegWr n v s
  | .reset => Sys2Proof.Machine.execReset s
  | .rxChunk b => Sys2Proof.Machine.execRxChunk b s
  | .rxClosed => Sys2Proof.Machine.execRxClosed s
  | .frmUnpack b => Sys2Proof.Machine.execFrmUnpack b s
  | .rxDataAck q h d => Sys2Proof.Machine.execRxDataAck q h d s
  | .rxDataNoack q h d => Sys2Proof.Machine.execRxDataNoack q h d s
  | .rxRespAck q h d => Sys2Proof.Machine.execRxRespAck q h d s
  | .rxRespNack q h d => Sys2Proof.Machine.execRxRespNack q h d s
  | .seqNext => Sys2Proof.Machine.execSeqNext s
  | .seqNoack => Sys2Proof.Machine.execSeqNoack s
  | .pendStore q ft d => Sys2Proof.Machine.execPendStore q ft d s
  | .pendTake q => Sys2Proof.Machine.execPendTake q s
  | .pendPurge q => Sys2Proof.Machine.execPendPurge q s
  | .tick => Sys2Proof.Machine.execTick s
  | .waitPoll q => Sys2Proof.Machine.execWaitPoll q s
  | .rtHdr h p => Sys2Proof.Machine.execRtHdr h p s
  | .rspHdrDataAck h q rv p => Sys2Proof.Machine.execRspHdrDataAck h q rv p s
  | .rspHdrDataNoack h q rv p => Sys2Proof.Machine.execRspHdrDataNoack h q rv p s
  | .rspHdrRespAck h q rv p => Sys2Proof.Machine.execRspHdrRespAck h q rv p s
  | .rspHdrRespNack h q rv p => Sys2Proof.Machine.execRspHdrRespNack h q rv p s
  | .rspHdrReserved h q ft rv p => Sys2Proof.Machine.execRspHdrReserved h q ft rv p s

end Sys2Proof.Machine
end

