-- ==== Sys2Proof/Machine/Step.lean ====
section
/-! DEFINITION. One step: the block takes the next transaction an agent presents and runs the operation it selects
(20_memory.md R58 to R61; log 5). -/

namespace Sys2Proof.Machine

/-- The transaction at the head of the inbox, already taken from it. A command record that selects no command returns
its error and does nothing else (R85, R87). -/
def serve (t : Transaction) (s : State) : Host.Outcome State Fault Refusal :=
  match decode t with
  | .ok i => exec i s
  | .error e =>
    match t, e with
    | .cmd _ _, e => .next (fail (commandError e) s)
    | _, .fieldRange => .refused .operandRange
    | _, _ => .refused .illegalIdentifier

/-- One step. With nothing presented the block is idle (R262): the state stays as it is. The reset input acts like the
`RESET` command and returns nothing (R260). -/
def step (s : State) : Host.Outcome State Fault Refusal :=
  match s.inbox with
  | [] => .next s
  | .resetPin :: rest => .next (resetBlock { s with inbox := rest })
  | .transaction t :: rest => serve t { s with inbox := rest }

/-- The operation of a table word, presented to the block as its next one, with what the block needs to start it
(log 4). -/
def State.withFetchWord (s : State) (nbits w : Nat) : State :=
  match tableTransaction nbits w with
  | some t => present t (enable t s)
  | none => s

end Sys2Proof.Machine
end

