-- ==== Sys2Proof/Safety.lean ====
section
/-! DEFINITION. The words the claims use: what an agent presents, what a good state is, what an output is, and the parts
of the spec said a second time, independently of the meanings (the block structure of COBS, the cut of a stream, the
deadline of a waiter, what one tick does to one slot). -/

namespace Sys2Proof.Machine

/-! ### Inputs -/

/-- The link delivers a chunk on `LRX` (R54). -/
def chunkInput (c : Bytes) : Input := .transaction (.op 0x80 { bytes := c })

/-- The link delivers `closed` on `LRX` (R55). -/
def closedInput : Input := .transaction (.op 0x81 {})

/-- One tick on `TICKP` (R226). -/
def tickInput : Input := .transaction (.op 0xA0 {})

/-- The host presents a command record on `HCMD` (R51). -/
def commandInput (code : Byte) (a : Args) : Input := .transaction (.cmd code a)

/-- What the agents of R58 and the reset input of R260 can present: a command, a chunk, `closed`, a tick, a reset. The
other transactions are internal operations and header rows, looked at on their own (log 5). -/
def Input.fromAgent : Input → Bool
  | .resetPin => true
  | .transaction (.cmd _ _) => true
  | .transaction (.op identifier _) => identifier = 0x80 || identifier = 0x81 || identifier = 0xA0
  | .transaction (.rt _ _) => false
  | .transaction (.rsp _ _ _ _) => false

/-! ### Outputs -/

/-- The bytes of a `LinkWrite` (R53). -/
def Output.linkBytes : Output → Option Bytes
  | .link b => some b
  | .result _ _ | .event _ | .handler _ _ | .returned _ => none

/-- A `DONE` event of sequence number `q` (R56). -/
def Output.isDone (q : SeqNo) : Output → Bool
  | .event (.done q' _ _ _) => q' == q
  | .event (.packet _ _) | .event (.discard _ _) | .result _ _ | .link _ | .handler _ _ | .returned _ => false

/-- The error outcome an output carries: of a command's result, of a `DONE` event, of a `DISCARD` event. -/
def Output.err : Output → Option Err
  | .result (.error e) _ => some e
  | .event (.done _ (.error e) _ _) => some e
  | .event (.discard e _) => some e
  | .event (.packet _ _) | .event (.done _ .ok _ _) | .result .ok _ | .link _ | .handler _ _ | .returned _ => none

/-- The state with these outputs added, in this order, and nothing else changed. -/
def State.emitting (s : State) (l : List Output) : State := { s with out := s.out ++ l }

/-- A bytes operand of type `bytes`: length 0 to `MAX_PAYLOAD` (R85). -/
def State.WithinMax (s : State) (b : Bytes) : Prop := ∀ m, s.params.maxPayload = some m → b.length ≤ m

/-- A carry-over segment the buffer can hold (R34, R112). -/
def State.WithinCap (s : State) (b : Bytes) : Prop := ∀ cap, s.params.carryCap = some cap → b.length ≤ cap

/-! ### Frames on the wire -/

/-- What the link gets for a body with its checksum: the unit, COBS-encoded and terminated when `FRAMING_EN = 1`
(R70, R71). -/
def checkedFrame (s : State) (body : Bytes) : Bytes :=
  let u := body ++ [(crc16 body).extractLsb' 8 8, (crc16 body).extractLsb' 0 8]
  if s.cfg.framingEn then cobsEncode u ++ [0x00] else u

/-- What the link gets for a body without one (R71). -/
def uncheckedFrame (s : State) (body : Bytes) : Bytes :=
  if s.cfg.framingEn then cobsEncode body ++ [0x00] else body

/-- The routing header byte the block sends, `64 * V + 4 * ch + 2 * rr` (R141). -/
def routingByte (s : State) (channel : BitVec 4) (rr : BitVec 1) : Byte :=
  BitVec.ofNat 8 (64 * s.params.protocolVersion.toNat + 4 * channel.toNat + 2 * rr.toNat)

/-- The channel and flag a send uses: those of the command in `ABOVE` mode, none in the others (R171, R172). -/
def laneOf (s : State) (channel : Nat) (rr : BitVec 1) : Option (BitVec 4 × BitVec 1) :=
  if s.cfg.relMode = .above then some (BitVec.ofNat 4 channel, rr) else none

/-- A reliability frame on the wire: the routing header byte in `ABOVE` mode, the sequence number, header byte 1, the
data, the checksum (R77, R202 to R204). -/
def relFrame (s : State) (lane : Option (BitVec 4 × BitVec 1)) (q : SeqNo) (byte1 : Byte) (data : Bytes) : Bytes :=
  checkedFrame s ((match lane with
    | none => []
    | some l => [routingByte s l.1 l.2]) ++ q :: byte1 :: data)

/-- An output as a block with framing on makes it: a link write becomes the frame of its bytes (R70, R207). -/
def Output.framed : Output → Output
  | .link b => .link (cobsEncode b ++ [0x00])
  | .result st f => .result st f
  | .event e => .event e
  | .handler q a => .handler q a
  | .returned r => .returned r

/-! ### Byte streams -/

/-- The bytes after the last 0x00 (R34: "the bytes received since the last 0x00 terminator"). -/
def afterLastZero (b : Bytes) : Bytes := (b.reverse.takeWhile fun x => x != 0).reverse

/-- A COBS block: a code byte and the data bytes it announces (R73). -/
abbrev CobsBlock := Byte × Bytes

/-- "A block is one code byte c, 1 to 255, followed by exactly c - 1 data bytes, none of them 0x00" (R73). -/
def CobsBlock.good (b : CobsBlock) : Prop := b.2.length + 1 = b.1.toNat ∧ (0x00 : Byte) ∉ b.2

/-- The bytes of a sequence of blocks (R73). -/
def blockBytes (l : List CobsBlock) : Bytes := l.flatMap fun b => b.1 :: b.2

/-- What a sequence of blocks stands for: each block's data, and a zero after each that is neither the last nor full
(R73). -/
def blockMeaning : List CobsBlock → Bytes
  | [] => []
  | [b] => b.2
  | b :: c :: rest => b.2 ++ (if b.1 = 0xFF then [] else [0x00]) ++ blockMeaning (c :: rest)

/-- The message bits, most significant bit of the first byte first (R122). -/
def messageBits (m : Bytes) : List Bool := m.flatMap fun b => (List.range 8).map fun i => b.getLsbD (7 - i)

/-- The first `n` bits complemented (R122). -/
def complementFirst (n : Nat) (l : List Bool) : List Bool := (l.take n).map (fun b => !b) ++ l.drop n

/-- One digit of the schoolbook division by x^16 + x^15 + x^2 + 1 over GF(2): the next bit is brought down, and the
divisor is subtracted when the x^16 term is there. -/
def gf2Digit (r : BitVec 16) (bit : Bool) : BitVec 16 :=
  let shifted := (r <<< 1) ||| (BitVec.ofBool bit).setWidth 16
  if r.getLsbD 15 then shifted ^^^ 0x8005 else shifted

/-- The remainder of a polynomial over GF(2), highest power first, modulo 0x18005 (R122). -/
def gf2Remainder (bits : List Bool) : BitVec 16 := bits.foldl gf2Digit 0

/-- `FRM.UNPACK` over chunks in arrival order: the results of all, and the carry-over buffer at the end (R111). -/
def unpackChunks : Bytes → List Bytes → List Candidate × Bytes
  | carry, [] => ([], carry)
  | carry, c :: rest =>
    let r := frameUnpack carry c
    let r' := unpackChunks r.2 rest
    (r.1 ++ r'.1, r'.2)

/-- One bit of a byte sequence inverted: bit `bit` of the byte at index `index` (R128 (a)). -/
def flipBit (b : Bytes) (index : Nat) (bit : Nat) : Bytes :=
  b.modify index fun x => x ^^^ (1#8 <<< bit)

/-! ### Candidates and stored responses -/

/-- The candidates of a chunk: one per terminator with framing on, the whole chunk with framing off (R110, R208). -/
def candidatesOf (s : State) (chunk : Bytes) : List Candidate :=
  if s.cfg.framingEn then (frameUnpack s.carry chunk).1 else [.ok chunk]

/-- The verified body a header row stands for (R74, R76; log 8). -/
def Instr.arrivingBody : Instr → Option Bytes
  | .rtHdr h p => some (packRtHeader h :: p)
  | .rspHdrDataAck r q rv p => some ((r.map packRtHeader).toList ++ q :: packRspByte 0 rv :: p)
  | .rspHdrDataNoack r q rv p => some ((r.map packRtHeader).toList ++ q :: packRspByte 1 rv :: p)
  | .rspHdrRespAck r q rv p => some ((r.map packRtHeader).toList ++ q :: packRspByte 2 rv :: p)
  | .rspHdrRespNack r q rv p => some ((r.map packRtHeader).toList ++ q :: packRspByte 3 rv :: p)
  | .rspHdrReserved r q ft rv p => some ((r.map packRtHeader).toList ++ q :: packRspByte ft rv :: p)
  | .nop | .cobsEnc _ | .cobsDec _ | .frmPack _ | .crcGen _ | .verPack _ | .verUnpack _ | .rtPack _ _ _ | .rtUnpack _
  | .rspPack _ _ _ | .rspUnpack _ | .sendNoack _ _ _ | .sendAck _ _ _ _ | .txPlain _ _ _ | .cfgWr _ | .regRd _
  | .regWr _ _ | .reset | .rxChunk _ | .rxClosed | .frmUnpack _ | .rxDataAck _ _ _ | .rxDataNoack _ _ _
  | .rxRespAck _ _ _ | .rxRespNack _ _ _ | .seqNext | .seqNoack | .pendStore _ _ _ | .pendTake _ | .pendPurge _ | .tick
  | .waitPoll _ => none

/-- No response payload that the operation could store is longer than `m` bytes: a body has at least 2 header bytes, a
candidate 2 checksum bytes more in the modes that store (R27, R72). -/
def Instr.deliversWithin (m : Nat) (s : State) (i : Instr) : Prop :=
  (∀ c, i = .rxChunk c → ∀ x, .ok x ∈ candidatesOf s c → x.length ≤ m + 4) ∧
  (∀ body, Instr.arrivingBody i = some body → body.length ≤ m + 2) ∧
  (∀ q ft d, i = .pendStore q ft d → d.length ≤ m) ∧
  (∀ q h d, i = .rxRespAck q h d ∨ i = .rxRespNack q h d → d.length ≤ m)

/-- Every entry of `PEND` holds at most `m` bytes (R161). -/
def State.PendWithin (m : Nat) (s : State) : Prop := ∀ q e, pendGet s q = some e → e.data.length ≤ m

/-- The bytes `PEND` holds (R161). -/
def State.pendBytes (s : State) : Nat :=
  (s.pend.toList.map fun e => match e with
    | none => 0
    | some e => e.data.length).sum

/-! ### Waiters -/

/-- The elapsed time at which a waiter that gets no response ends, `POLL * ceil(T / POLL)` (R176 (b)). -/
def lastPoll (timeout : Ticks) : Nat :=
  Config.poll * ((timeout.toNat + (Config.poll - 1)) / Config.poll)

/-- The `DONE` event of a response (R175). -/
def doneResponse (q : SeqNo) (e : PendEntry) : Output :=
  .event (.done q .ok (decide (e.frameType = .ack)) e.data)

/-- The `DONE` event of a timeout, with the seven ASCII bytes `Timeout` (R175, R235). -/
def doneTimeout (q : SeqNo) : Output :=
  .event (.done q (.error .timeout) false [0x54, 0x69, 0x6D, 0x65, 0x6F, 0x75, 0x74])

/-- What the tick that brings `NOW` to `now` emits for slot `q`, from the slot and the entry alone (R175, R226). -/
def tickEvent (now : Ticks) (q : SeqNo) (w : Waiter) (e : Option PendEntry) : Option Output :=
  match w, e with
  | .idle, _ => none
  | .busy t0 timeout, e =>
    if (now - t0).toNat % Config.poll ≠ 0 then none
    else match e with
      | some e => some (doneResponse q e)
      | none => if timeout.toNat ≤ (now - t0).toNat then some (doneTimeout q) else none

/-! ### Good states -/

/-- A good state of the block: the buffer holds no terminator and fits (R34, R111); the timeouts are legal (R32, R36);
no entry of `PEND` holds more than `MAX_PAYLOAD` bytes (R161, R279);
and every busy waiter is still before the poll that ends it (R176 (b)), so that none waits past its deadline by more
than `POLL - 1` ticks. -/
structure State.Good (s : State) : Prop where
  carryHasNoZero : (0x00 : Byte) ∉ s.carry
  carryWithinCap : ∀ cap, s.params.carryCap = some cap → s.carry.length ≤ cap
  defaultTimeoutLegal : s.timeoutDefault.toNat ≤ 2 ^ 31 - 1
  waiterTimeoutLegal : ∀ q t0 timeout, waitGet s q = .busy t0 timeout → timeout.toNat ≤ 2 ^ 31 - 1
  waiterInTime : ∀ q t0 timeout, waitGet s q = .busy t0 timeout → (s.now - t0).toNat < lastPoll timeout
  pendWithinMax : ∀ m, s.params.maxPayload = some m → s.PendWithin m

end Sys2Proof.Machine
end

