-- ==== Sys2Proof/Certificates/Slice0/Obligations.lean ====
section
/-! DEFINITION. The statements for the provers: what the numbered rules of the spec say, of every state. -/

open Sys2Proof Sys2Proof.Machine

/-! ### Encoding -/

/-- R74, R76, R86, R88, R89: no bit of an encoding is dropped. -/
def Obligations.DecodeOfEncode : Prop :=
  ∀ i : Instr, i.wf = true → decode (encode i) = .ok i

/-- R74, R77, R86, R88: words written out from the tables decode to the operations they stand for. -/
def Obligations.TableWordsDecode : Prop :=
  decodeTableWord 8 0b00000001 = some (.cobsEnc []) ∧
  decodeTableWord 8 0b00010000 = some (.crcGen []) ∧
  decodeTableWord 8 0b00100000 = some (.rtPack [] 0 0) ∧
  decodeTableWord 8 0b01000001 = some (.sendAck [] none 0 0) ∧
  decodeTableWord 8 0b01001000 = some (.txPlain 0 0 []) ∧
  decodeTableWord 8 0b01100010 = some (.regWr 0 0) ∧
  decodeTableWord 8 0b10000000 = some (.rxChunk []) ∧
  decodeTableWord 8 0b10010011 = some (.pendTake 0) ∧
  decodeTableWord 8 0b10100000 = some .tick ∧
  decodeTableWord 8 0b01011011 = some (.rtHdr ⟨1, 6, 1, 1⟩ []) ∧
  decodeTableWord 16 0b1110000100101001 = some (.rspHdrRespAck none 0xE1 9 []) ∧
  decodeTableWord 16 0b0000011101010001 = some (.rspHdrReserved none 7 5 1 [])

/-- R74, R89, R141: the value of a routing header byte, and its fields cut out again. -/
def Obligations.RoutingHeaderByte : Prop :=
  (∀ h : RtHeader, (packRtHeader h).toNat =
    h.version.toNat * 64 + h.channel.toNat * 4 + h.requestResponse.toNat * 2 + h.reserved.toNat) ∧
  (∀ h : RtHeader, unpackRtHeader (packRtHeader h) = h) ∧
  (∀ b : Byte, packRtHeader (unpackRtHeader b) = b)

/-! ### Steps -/

/-- R58, R60, R262: when the transaction at the head of the inbox decodes, the step is that operation's, at the state
without the transaction; with nothing presented the block is idle. -/
def Obligations.StepRunsTheDecodedOperation : Prop :=
  (∀ (s : State) (t : Transaction) (rest : List Input) (i : Instr),
    s.inbox = .transaction t :: rest → decode t = .ok i → step s = exec i { s with inbox := rest }) ∧
  (∀ s : State, s.inbox = [] → step s = .next s)

/-- R87: an illegal command code returns `ContractViolation(illegal_command)`, changes no state and produces no output. -/
def Obligations.IllegalCommandCodeRefused : Prop :=
  ∀ (s : State) (code : Byte) (a : Args) (rest : List Input),
    code.toNat ∉ [0x00, 0x01, 0x02, 0x03, 0x10, 0x11, 0x12, 0x20, 0x21, 0x22, 0x23, 0x40, 0x41, 0x48, 0x60, 0x61, 0x62,
      0x6F] →
    s.inbox = commandInput code a :: rest →
    step s = .next ({ s with inbox := rest }.emitting [.result (.error (.contract .illegalCommand)) .none])

/-- R85, R238: a command whose operand is out of its range fails with the reason R238 gives that operand, and has no
effect: a channel above 15 where the channel is used, and one that is no `u8` where it is not; a timeout above 2^31 - 1;
`field_range` for the other operands outside their type and for a bytes operand longer than `MAX_PAYLOAD`. The last two come
before the operation's own checks; that order, and the channel of `BELOW` mode, are the model's choice, log 7. -/
def Obligations.FieldOutsideItsTypeRefused : Prop :=
  (∀ (s : State) (code : Byte) (a : Args) (rest : List Input),
    (code ∈ [(0x20 : Byte), 0x40, 0x41, 0x48] ∧ 2 ≤ a.requestResponse) ∨
    (code = 0x22 ∧ (256 ≤ a.sequence ∨ 256 ≤ a.frameType)) ∨
    (code = 0x60 ∧ 256 ≤ a.value) ∨
    (code ∈ [(0x61 : Byte), 0x62] ∧ 256 ≤ a.number) ∨
    (code = 0x62 ∧ a.number ≠ 4 ∧ 2 ^ 32 ≤ a.value) →
    s.inbox = commandInput code a :: rest →
    step s = .next ({ s with inbox := rest }.emitting [.result (.error (.contract .fieldRange)) .none])) ∧
  (∀ (s : State) (code : Byte) (a : Args) (rest : List Input), s.WithinMax a.bytes → a.requestResponse < 2 →
    (15 < a.channel ∧ (code = 0x20 ∨ (code = 0x48 ∧ s.cfg.relMode = .off) ∨
      (code ∈ [(0x40 : Byte), 0x41] ∧ s.cfg.relMode = .above))) ∨
    (256 ≤ a.channel ∧ code ∈ [(0x40 : Byte), 0x41] ∧ s.cfg.relMode = .below) →
    s.inbox = commandInput code a :: rest →
    step s = .next ({ s with inbox := rest }.emitting [.result (.error (.contract .channelRange)) .none])) ∧
  (∀ (s : State) (a : Args) (t : Nat) (rest : List Input), s.WithinMax a.bytes → a.requestResponse < 2 →
    (s.cfg.relMode = .below ∧ a.channel < 256) ∨ (s.cfg.relMode = .above ∧ a.channel ≤ 15) →
    a.timeout = some t → 2 ^ 31 - 1 < t → s.inbox = commandInput 0x41 a :: rest →
    step s = .next ({ s with inbox := rest }.emitting [.result (.error (.contract .timeoutRange)) .none])) ∧
  (∀ (s : State) (a : Args) (rest : List Input), a.number = 4 → 2 ^ 31 - 1 < a.value →
    s.inbox = commandInput 0x62 a :: rest →
    step s = .next ({ s with inbox := rest }.emitting [.result (.error (.contract .timeoutRange)) .none])) ∧
  (∀ (s : State) (b : Bytes) (m ch : Nat) (ft : BitVec 8) (rr : BitVec 1) (q : SeqNo) (timeout : Option Nat),
    s.params.maxPayload = some m → m < b.length →
    ∀ i ∈ [Instr.cobsEnc b, .cobsDec b, .frmPack b, .crcGen b, .verPack b, .verUnpack b, .rtPack b ch rr, .rtUnpack b,
        .rspPack q ft b, .rspUnpack b, .sendNoack b ch rr, .sendAck b timeout ch rr, .txPlain ch rr b],
      exec i s = .next (s.emitting [.result (.error (.contract .fieldRange)) .none]))

/-- R51, R240: a command returns one result, its last output; one that returns an error changed no state and produced no
other output. -/
def Obligations.CommandReturnsOneResult : Prop :=
  ∀ (s : State) (code : Byte) (a : Args) (rest : List Input), s.inbox = commandInput code a :: rest →
    ∃ (t : State) (l : List Output) (st : Status) (f : Fields),
      step s = .next t ∧ t.out = s.out ++ l ++ [.result st f] ∧
      (∀ o ∈ l, ∀ st' f', o ≠ .result st' f') ∧
      (∀ e, st = .error e →
        f = .none ∧ t = { s with inbox := rest }.emitting [.result (.error e) .none])

/-- R56, R59, R236, R261 (e): a step only adds outputs, at the end; none carries `TransportError`. -/
def Obligations.OutputsAreOnlyAdded : Prop :=
  ∀ s t : State, step s = .next t →
    ∃ l : List Output, t.out = s.out ++ l ∧ ∀ o ∈ l, o.err ≠ some .transport

/-! ### Framing -/

/-- R101, R103, R108: `COBS.ENC` returns the encoding, which holds no 0x00; `FRM.PACK` returns the encoding and one
terminator, its only 0x00; neither changes anything else, `CARRY` included. -/
def Obligations.CobsEncodeAndPackResults : Prop :=
  ∀ (p : Bytes) (s : State), s.WithinMax p →
    exec (.cobsEnc p) s = .next (s.emitting [.result .ok (.bytes (cobsEncode p))]) ∧
    (0x00 : Byte) ∉ cobsEncode p ∧
    exec (.frmPack p) s = .next (s.emitting [.result .ok (.bytes (cobsEncode p ++ [0x00]))]) ∧
    (cobsEncode p ++ [0x00]).count 0x00 = 1

/-- R73: the encoding is a sequence of blocks that stands for the payload. -/
def Obligations.CobsEncodingIsBlocks : Prop :=
  ∀ u : Bytes, ∃ l : List CobsBlock,
    l ≠ [] ∧ (∀ b ∈ l, b.good) ∧ cobsEncode u = blockBytes l ∧ blockMeaning l = u

/-- R102: the length of the encoding, its bounds and the payloads that meet them. -/
def Obligations.CobsEncodedLength : Prop :=
  ∀ p : Bytes,
    (p.length + 1 ≤ (cobsEncode p).length ∧
      (cobsEncode p).length ≤ p.length + max 1 ((p.length + 253) / 254)) ∧
    (p.length < 254 → (cobsEncode p).length = p.length + 1) ∧
    ((∀ r : Bytes, r <:+: p → r.length = 254 → (0x00 : Byte) ∈ r) → (cobsEncode p).length = p.length + 1) ∧
    ((0x00 : Byte) ∉ p → (cobsEncode p).length = p.length + max 1 ((p.length + 253) / 254))

/-- R105, R106: `COBS.DEC` by the tests in their order; a segment that is a sequence of blocks decodes to what the blocks
stand for, and no other malformation exists. -/
def Obligations.CobsDecodeOutcomes : Prop :=
  ∀ (x : Bytes) (s : State), s.WithinMax x →
    if (0x00 : Byte) ∈ x then
      exec (.cobsDec x) s = .next (s.emitting [.result (.error (.framing .zeroInSegment)) .none])
    else if x = [] then
      exec (.cobsDec x) s = .next (s.emitting [.result (.error (.framing .emptySegment)) .none])
    else
      (∀ l : List CobsBlock, (∀ b ∈ l, b.good) → x = blockBytes l →
        exec (.cobsDec x) s = .next (s.emitting [.result .ok (.bytes (blockMeaning l))])) ∧
      ((¬∃ l : List CobsBlock, (∀ b ∈ l, b.good) ∧ x = blockBytes l) →
        exec (.cobsDec x) s = .next (s.emitting [.result (.error (.framing .truncatedBlock)) .none]))

/-- R107: decoding the encoding gives the payload back; encoding what a segment decodes to gives the segment back, unless
it ends in a full block followed by the one byte 01. -/
def Obligations.CobsRoundTrip : Prop :=
  (∀ p : Bytes, cobsDecode (cobsEncode p) = .ok p) ∧
  (∀ x p : Bytes, cobsDecode x = .ok p →
    (¬∃ (l : List CobsBlock) (d : Bytes), (∀ b ∈ l, b.good) ∧ CobsBlock.good (0xFF, d) ∧
      x = blockBytes l ++ (0xFF :: d) ++ [0x01]) →
    cobsEncode p = x)

/-- R110: `FRM.UNPACK` cuts the buffer at every 0x00, decodes each segment and keeps the rest. The output `returned`, by
which an operation run on its own answers its invoker, is the model's choice, log 5. -/
def Obligations.FrameUnpackResult : Prop :=
  ∀ (chunk : Bytes) (s : State), s.rxClosed = false → s.cfg.framingEn = true →
    s.WithinCap (afterLastZero (s.carry ++ chunk)) →
    ∃ segments : List Bytes,
      (∀ x ∈ segments, (0x00 : Byte) ∉ x) ∧
      s.carry ++ chunk = segments.flatMap (fun x => x ++ [0x00]) ++ afterLastZero (s.carry ++ chunk) ∧
      exec (.frmUnpack chunk) s = .next ({ s with carry := afterLastZero (s.carry ++ chunk) }.emitting
        [.returned (.candidates (segments.map fun x => match cobsDecode x with
          | .ok p => .ok p
          | .error reason => .err reason x))])

/-- R111: `CARRY` holds no 0x00 after every `FRM.UNPACK`; the results depend on the concatenation of the chunks, not on
where they were cut; frames in any chunking yield exactly their payloads and leave `CARRY` empty. -/
def Obligations.ReassemblyIgnoresChunking : Prop :=
  (∀ carry chunk : Bytes, (0x00 : Byte) ∉ (frameUnpack carry chunk).2) ∧
  (∀ (carry : Bytes) (cs ds : List Bytes), (0x00 : Byte) ∉ carry → cs.flatten = ds.flatten →
    unpackChunks carry cs = unpackChunks carry ds) ∧
  (∀ (ps cs : List Bytes), cs.flatten = ps.flatMap framePack →
    unpackChunks [] cs = (ps.map Candidate.ok, []))

/-! ### Verification -/

/-- R121: `CRC.GEN` returns the checksum, with the known answers of R123, and changes nothing else. -/
def Obligations.CrcGenResult : Prop :=
  (∀ (m : Bytes) (s : State), s.WithinMax m →
    exec (.crcGen m) s = .next (s.emitting [.result .ok (.crc (crc16 m))])) ∧
  crc16 [0x31, 0x32, 0x33, 0x34, 0x35, 0x36, 0x37, 0x38, 0x39] = 0xAEE7 ∧ crc16 [] = 0xFFFF ∧
  crc16 [0x00] = 0xFD02 ∧ crc16 [0x01] = 0x7D07 ∧ crc16 [0xFF] = 0xFF00 ∧ crc16 [0xFF, 0xFF] = 0x0000 ∧
  crc16 [0x00, 0x00] = 0x800D ∧ crc16 [0x41] = 0xFC84 ∧ crc16 [0x68, 0x65, 0x6C, 0x6C, 0x6F] = 0x1CC5

/-- R122: the checksum is the remainder, modulo the polynomial 0x18005 over GF(2), of the message bits multiplied by
x^16, with the first 16 bits complemented; for a message shorter than 16 bits these reach into the appended zeros. -/
def Obligations.CrcIsPolynomialRemainder : Prop :=
  ∀ m : Bytes, crc16 m = gf2Remainder (complementFirst 16 (messageBits m ++ List.replicate 16 false))

/-- R125: the residue of a unit is zero. -/
def Obligations.ResidueIsZero : Prop :=
  ∀ p : Bytes, crc16 (verPack p) = 0x0000

/-- R124, R126, R127: `VER.PACK` appends the checksum, high byte first, and `VER.UNPACK` of the unit returns the payload;
neither changes anything else. -/
def Obligations.VerifyRoundTrip : Prop :=
  ∀ (p : Bytes) (s : State), s.WithinMax p → s.WithinMax (verPack p) →
    exec (.verPack p) s = .next (s.emitting [.result .ok
      (.bytes (p ++ [(crc16 p).extractLsb' 8 8, (crc16 p).extractLsb' 0 8]))]) ∧
    exec (.verUnpack (p ++ [(crc16 p).extractLsb' 8 8, (crc16 p).extractLsb' 0 8])) s =
      .next (s.emitting [.result .ok (.bytes p)])

/-- R126: `VER.UNPACK`, command code 0x12, by the length test, then the residue test. -/
def Obligations.VerUnpackOutcomes : Prop :=
  (∀ x : Bytes, decode (.cmd 0x12 { bytes := x }) = .ok (.verUnpack x)) ∧
  (∀ (x : Bytes) (s : State), s.WithinMax x →
    exec (.verUnpack x) s = .next (s.emitting [
      if x.length < 2 then .result (.error (.checksum .short)) .none
      else if crc16 x = 0x0000 then .result .ok (.bytes (x.take (x.length - 2)))
      else .result (.error (.checksum .residue)) .none]))

/-- R128 (a): inverting any single bit of a unit makes `VerUnpack` fail with `ChecksumError(residue)`. -/
def Obligations.SingleBitFlipDetected : Prop :=
  ∀ (p : Bytes) (index bit : Nat), index < (verPack p).length → bit < 8 →
    verUnpack (flipBit (verPack p) index bit) = .error .residue

/-- R128 (c): a unit with 0x00 bytes appended passes, and a wrong payload is returned. -/
def Obligations.AppendedZerosPass : Prop :=
  ∀ (p : Bytes) (n : Nat), ∃ q : Bytes,
    verUnpack (verPack p ++ List.replicate n 0x00) = .ok q ∧ q.length = p.length + n ∧ p <+: q

/-! ### Headers -/

/-- R136, R137, R141: `RT.PACK` puts the header byte in front of the payload; a channel above 15 is refused, never
masked. -/
def Obligations.RtPackOutcomes : Prop :=
  ∀ (p : Bytes) (ch : Nat) (rr : BitVec 1) (s : State), s.WithinMax p →
    exec (.rtPack p ch rr) s = .next (s.emitting [
      if ch ≤ 15 then
        .result .ok (.bytes (BitVec.ofNat 8
          (64 * s.params.protocolVersion.toNat + 4 * ch + 2 * rr.toNat) :: p))
      else .result (.error (.contract .channelRange)) .none])

/-- R139: `RT.UNPACK`, command code 0x21, by the length test, then the version test; the fields of the header and the payload behind it. -/
def Obligations.RtUnpackOutcomes : Prop :=
  (∀ x : Bytes, decode (.cmd 0x21 { bytes := x }) = .ok (.rtUnpack x)) ∧
  (∀ s : State, exec (.rtUnpack []) s = .next (s.emitting [.result (.error (.malformed .shortHeader)) .none])) ∧
  (∀ (h : Byte) (p : Bytes) (s : State), s.WithinMax (h :: p) →
    exec (.rtUnpack (h :: p)) s = .next (s.emitting [
      if h.toNat / 64 = s.params.protocolVersion.toNat then
        .result .ok (.routing (BitVec.ofNat 8 (h.toNat / 64)) (BitVec.ofNat 8 (h.toNat / 4 % 16))
          (BitVec.ofNat 1 (h.toNat / 2)) (BitVec.ofNat 1 h.toNat) p)
      else .result (.error (.protocolVersion (BitVec.ofNat 2 (h.toNat / 64)))) .none]))

/-- R143: `RSP.PACK`, command code 0x22, puts the two header bytes in front of the payload; a frame type above 3 is refused; `SEQ` is not
touched. -/
def Obligations.RspPackOutcomes : Prop :=
  (∀ (q : SeqNo) (ft : BitVec 8) (p : Bytes),
    decode (.cmd 0x22 { bytes := p, sequence := q.toNat, frameType := ft.toNat }) = .ok (.rspPack q ft p)) ∧
  (∀ (q : SeqNo) (ft : BitVec 8) (p : Bytes) (s : State), s.WithinMax p →
    exec (.rspPack q ft p) s = .next (s.emitting [
      if ft.toNat ≤ 3 then .result .ok (.bytes (q :: BitVec.ofNat 8 (16 * ft.toNat) :: p))
      else .result (.error (.contract .frameTypeRange)) .none]))

/-- R146: `RSP.UNPACK`, command code 0x23, by the length test, then the frame type test; the reserved bits are returned as received. -/
def Obligations.RspUnpackOutcomes : Prop :=
  (∀ x : Bytes, decode (.cmd 0x23 { bytes := x }) = .ok (.rspUnpack x)) ∧
  (∀ (x : Bytes) (s : State), x.length < 2 → s.WithinMax x →
    exec (.rspUnpack x) s = .next (s.emitting [.result (.error (.malformed .shortHeader)) .none])) ∧
  (∀ (b0 b1 : Byte) (d : Bytes) (s : State), s.WithinMax (b0 :: b1 :: d) →
    exec (.rspUnpack (b0 :: b1 :: d)) s = .next (s.emitting [
      if b1.toNat / 16 ≤ 3 then
        .result .ok (.reliability b0 (BitVec.ofNat 8 (b1.toNat / 16)) (BitVec.ofNat 8 (b1.toNat % 16)) d)
      else .result (.error (.malformed .badFrameType)) .none]))

/-- R140, R147: unpacking a packed routing header, and a packed reliability header, gives the fields and the payload
back. -/
def Obligations.HeaderRoundTrips : Prop :=
  (∀ (v : BitVec 2) (p : Bytes) (ch : Nat) (rr : BitVec 1), ch ≤ 15 →
    ∃ framed : Bytes, rtPack v p ch rr = .ok framed ∧
      rtUnpack v framed = .ok ({ version := v, channel := BitVec.ofNat 4 ch, requestResponse := rr,
                                 reserved := 0 }, p)) ∧
  (∀ (q : SeqNo) (ft : BitVec 8) (p : Bytes), ft.toNat ≤ 3 →
    ∃ (framed : Bytes) (type : FrameType), rspPack q ft p = .ok framed ∧
      (frameTypeCode type).toNat = ft.toNat ∧
      rspUnpack framed = .ok { sequence := q, frameType := type, reserved := 0, data := p })

/-! ### The sequence tracker -/

/-- R156, R157: `SEQ.NEXT` increments modulo 256 and returns the new value; `SEQ.NOACK` returns 0 and touches nothing. -/
def Obligations.SequenceNumbersHandedOut : Prop :=
  ∀ s : State,
    exec .seqNext s = .next ({ s with seq := BitVec.ofNat 8 ((s.seq.toNat + 1) % 256) }.emitting
      [.returned (.sequence (BitVec.ofNat 8 ((s.seq.toNat + 1) % 256)))]) ∧
    exec .seqNoack s = .next (s.emitting [.returned (.sequence 0)])

/-- R158, R159, R160: the three table operations change entry `q` alone; a taken entry is returned and gone. R161: a stored
entry holds the data, or, where they are longer than `MAX_PAYLOAD`, free bytes within it (log 10). -/
def Obligations.PendingTableOperations : Prop :=
  (∀ (q : SeqNo) (ft : RespType) (d : Bytes) (s : State), ∃ (t : State) (stored : Bytes),
    exec (.pendStore q ft d) s = .next t ∧ t = { s with pend := t.pend } ∧
    (s.WithinMax d → stored = d) ∧ s.WithinMax stored ∧
    ∀ r, pendGet t r = if r = q then some { frameType := ft, data := stored } else pendGet s r) ∧
  (∀ (q : SeqNo) (s : State), ∃ t : State,
    exec (.pendTake q) s = .next t ∧
    t = { s with pend := t.pend }.emitting [.returned (.entry (pendGet s q))] ∧
    ∀ r, pendGet t r = if r = q then none else pendGet s r) ∧
  (∀ (q : SeqNo) (s : State), ∃ t : State,
    exec (.pendPurge q) s = .next t ∧ t = { s with pend := t.pend } ∧
    ∀ r, pendGet t r = if r = q then none else pendGet s r)

/-! ### The reliability engine -/

/-- R171: `SEND.NOACK` writes one `DATA_NOACK` frame with sequence number 0 and succeeds at once; the mode test, then the
channel test in `ABOVE` mode (in `BELOW` mode a channel that is no `u8` is refused, log 7); `SEQ`, `PEND` and `WAIT`
untouched. -/
def Obligations.SendNoackOutcomes : Prop :=
  ∀ (d : Bytes) (ch : Nat) (rr : BitVec 1) (s : State), s.WithinMax d →
    exec (.sendNoack d ch rr) s = .next (s.emitting (
      if s.cfg.relMode = .off then [.result (.error (.contract .mode)) .none]
      else if (if s.cfg.relMode = .above then 15 < ch else 255 < ch) then
        [.result (.error (.contract .channelRange)) .none]
      else [.link (relFrame s (laneOf s ch rr) 0 0x10 d), .result .ok (.sent 1 [])]))

/-- R172: a `SEND.ACK` that is accepted allocates the next number, purges its entry, makes its slot busy, writes one
`DATA_ACK` frame and returns the number; with timeout 0 it has timed out before it returns. -/
def Obligations.SendAckAccepted : Prop :=
  ∀ (d : Bytes) (timeout : Option Nat) (ch : Nat) (rr : BitVec 1) (s : State), s.WithinMax d →
    s.cfg.relMode ≠ .off → (if s.cfg.relMode = .above then ch ≤ 15 else ch ≤ 255) →
    timeout.getD s.timeoutDefault.toNat ≤ 2 ^ 31 - 1 →
    waitGet s (s.seq + 1) = .idle →
    let q := s.seq + 1
    let s1 := pendSet q none { s with seq := q }
    exec (.sendAck d timeout ch rr) s = .next (
      if timeout.getD s.timeoutDefault.toNat = 0 then
        s1.emitting [.link (relFrame s (laneOf s ch rr) q 0x00 d), doneTimeout q, .result .ok (.sequence q)]
      else
        (waitSet q (.busy s.now (BitVec.ofNat 32 (timeout.getD s.timeoutDefault.toNat))) s1).emitting
          [.link (relFrame s (laneOf s ch rr) q 0x00 d), .result .ok (.sequence q)])

/-- R172, R173, R174: a `SEND.ACK` that is refused changes nothing, `SEQ` included; the checks in their order. A channel
that is no `u8` in `BELOW` mode: log 7. -/
def Obligations.SendAckRefused : Prop :=
  ∀ (d : Bytes) (timeout : Option Nat) (ch : Nat) (rr : BitVec 1) (s : State), s.WithinMax d →
    let refusedWith := fun e => exec (.sendAck d timeout ch rr) s = .next (s.emitting [.result (.error e) .none])
    if s.cfg.relMode = .off then refusedWith (.contract .mode)
    else if (if s.cfg.relMode = .above then 15 < ch else 255 < ch) then refusedWith (.contract .channelRange)
    else if 2 ^ 31 - 1 < timeout.getD s.timeoutDefault.toNat then refusedWith (.contract .timeoutRange)
    else waitGet s (s.seq + 1) ≠ .idle → refusedWith (.busy (s.seq + 1))

/-- R175: a busy waiter's poll: the response if there is one, else the timeout if it is due, else nothing. -/
def Obligations.WaitPollOutcomes : Prop :=
  ∀ (q : SeqNo) (t0 timeout : Ticks) (s : State), waitGet s q = .busy t0 timeout →
    (∀ e, pendGet s q = some e →
      exec (.waitPoll q) s = .next ((waitSet q .idle (pendSet q none s)).emitting [doneResponse q e])) ∧
    (pendGet s q = none → timeout.toNat ≤ (s.now - t0).toNat →
      exec (.waitPoll q) s = .next ((waitSet q .idle s).emitting [doneTimeout q])) ∧
    (pendGet s q = none → (s.now - t0).toNat < timeout.toNat → exec (.waitPoll q) s = .next s)

/-- R170, R180: a `DATA_ACK` runs the handler and writes exactly one response, with the same sequence number, on the
request's channel; the answer is the first waiting one, or a free one within `MAX_PAYLOAD`. -/
def Obligations.DataAckAnswered : Prop :=
  ∀ (q : SeqNo) (h : Option RtHeader) (d : Bytes) (s : State), s.rxClosed = false →
    (s.cfg.relMode = .below ∧ h = none) ∨ (s.cfg.relMode = .above ∧ h ≠ none) →
    ∃ a : Answer,
      (∀ a' rest, s.answers = a' :: rest → a = a') ∧
      (s.answers = [] → s.WithinMax a.data) ∧
      exec (.rxDataAck q h d) s = .next (
        { s with answers := s.answers.tail,
                 freeAnswers := if s.answers = [] then s.freeAnswers + 1 else s.freeAnswers }.emitting
          [.handler { sequence := q, frameType := .dataAck, header := h, data := d } a,
           .link (relFrame s (h.map fun x : RtHeader => (x.channel, x.requestResponse)) q (if a.ok then 0x20 else 0x30) a.data)])

/-- R181: a `DATA_NOACK` runs the handler and writes nothing to the link. -/
def Obligations.DataNoackNeverAnswered : Prop :=
  ∀ (q : SeqNo) (h : Option RtHeader) (d : Bytes) (s : State), s.rxClosed = false →
    (s.cfg.relMode = .below ∧ h = none) ∨ (s.cfg.relMode = .above ∧ h ≠ none) →
    ∃ a : Answer,
      (∀ a' rest, s.answers = a' :: rest → a = a') ∧
      exec (.rxDataNoack q h d) s = .next (
        { s with answers := s.answers.tail,
                 freeAnswers := if s.answers = [] then s.freeAnswers + 1 else s.freeAnswers }.emitting
          [.handler { sequence := q, frameType := .dataNoack, header := h, data := d } a])

/-- R182, R183: a response is stored in the entry of its sequence number and in no other; nothing is output, no other
state changes. R161: a payload longer than `MAX_PAYLOAD` leaves free bytes within it in the entry (log 10). -/
def Obligations.ResponsesAreStored : Prop :=
  ∀ (q : SeqNo) (h : Option RtHeader) (d : Bytes) (s : State), s.rxClosed = false →
    (s.cfg.relMode = .below ∧ h = none) ∨ (s.cfg.relMode = .above ∧ h ≠ none) →
    (∃ (t : State) (stored : Bytes), exec (.rxRespAck q h d) s = .next t ∧ t = { s with pend := t.pend } ∧
      (s.WithinMax d → stored = d) ∧ s.WithinMax stored ∧
      ∀ r, pendGet t r = if r = q then some { frameType := .ack, data := stored } else pendGet s r) ∧
    (∃ (t : State) (stored : Bytes), exec (.rxRespNack q h d) s = .next t ∧ t = { s with pend := t.pend } ∧
      (s.WithinMax d → stored = d) ∧ s.WithinMax stored ∧
      ∀ r, pendGet t r = if r = q then some { frameType := .nack, data := stored } else pendGet s r)

/-! ### The pipeline -/

/-- R205: `TX.PLAIN` writes one frame and returns the number of bytes given to the link; the mode test, then the channel
test. The size is stated where it fits its 32 bits (log 3). -/
def Obligations.TxPlainOutcomes : Prop :=
  ∀ (ch : Nat) (rr : BitVec 1) (p : Bytes) (s : State), s.WithinMax p →
    if s.cfg.relMode ≠ .off then
      exec (.txPlain ch rr p) s = .next (s.emitting [.result (.error (.contract .mode)) .none])
    else if 15 < ch then
      exec (.txPlain ch rr p) s = .next (s.emitting [.result (.error (.contract .channelRange)) .none])
    else
      let body := routingByte s (BitVec.ofNat 4 ch) rr :: p
      let w := if s.cfg.verifyEn then checkedFrame s body else uncheckedFrame s body
      ∃ n : BitVec 32, (w.length < 2 ^ 32 → n.toNat = w.length) ∧
        exec (.txPlain ch rr p) s = .next (s.emitting [.link w, .result .ok (.size n)])

/-- R59, R110, R208: with framing on, `RX.CHUNK` leaves the bytes after the last terminator in `CARRY`; it changes
neither `CFG`, `STATUS`, `SEQ`, `TIMEOUT_DEFAULT`, `NOW`, `WAIT` nor the parameters; with `REL_MODE = OFF` it emits one event
per terminator and writes no table. Two chunks, one after the other, do what their concatenation does as one chunk, so the
candidates of a chunk are processed in stream order, each to completion, and a discard does not end the loop. -/
def Obligations.RxChunkCompletes : Prop :=
  (∀ (chunk : Bytes) (s : State), s.rxClosed = false → s.cfg.framingEn = true →
    s.WithinCap (afterLastZero (s.carry ++ chunk)) →
    ∃ (t : State) (l : List Output), exec (.rxChunk chunk) s = .next t ∧
      t = { s with carry := afterLastZero (s.carry ++ chunk), pend := t.pend, answers := t.answers,
                   freeAnswers := t.freeAnswers, out := s.out ++ l } ∧
      (s.cfg.relMode = .off →
        l.length = (s.carry ++ chunk).count 0x00 ∧ (∀ o ∈ l, ∃ e, o = .event e) ∧
        t.pend = s.pend ∧ t.answers = s.answers ∧ t.freeAnswers = s.freeAnswers)) ∧
  (∀ (c d : Bytes) (s : State), s.rxClosed = false → s.cfg.framingEn = true →
    s.WithinCap (afterLastZero (s.carry ++ c)) → s.WithinCap (afterLastZero (s.carry ++ c ++ d)) →
    ∃ s1 t : State, exec (.rxChunk c) s = .next s1 ∧ exec (.rxChunk d) s1 = .next t ∧
      exec (.rxChunk (c ++ d)) s = .next t)

/-- R208, R212: with framing off, a chunk is one candidate, whole: `RX.CHUNK` of it does what a block with framing on and an
empty `CARRY` does with the frame of that candidate alone, but for the framing of what it writes; `CARRY` is neither read nor
written; with `REL_MODE = OFF` there is exactly one event; the two empty cases. -/
def Obligations.RxChunkUnframed : Prop :=
  (∀ (chunk carry : Bytes) (s : State), s.rxClosed = false → s.cfg.framingEn = false →
    ∃ t : State, exec (.rxChunk chunk) s = .next t ∧ t.carry = s.carry ∧
      exec (.rxChunk chunk) { s with carry := carry } = .next { t with carry := carry }) ∧
  (∀ (chunk : Bytes) (s : State), s.rxClosed = false → s.cfg.framingEn = false →
    ∃ (t u : State) (l m : List Output),
      exec (.rxChunk chunk) s = .next t ∧
      exec (.rxChunk (cobsEncode chunk ++ [0x00])) { s with cfg := { s.cfg with framingEn := true }, carry := [] } =
        .next u ∧
      t = { s with pend := u.pend, answers := u.answers, freeAnswers := u.freeAnswers, out := s.out ++ l } ∧
      u.out = s.out ++ m ∧ m = l.map Output.framed ∧
      (s.cfg.relMode = .off → ∃ e, l = [.event e])) ∧
  (∀ s : State, s.rxClosed = false → s.cfg.framingEn = false →
    exec (.rxChunk []) s = .next (s.emitting [.event (.discard
      (if s.cfg.verifyEn = true ∨ s.cfg.relMode ≠ .off then .checksum .short else .malformed .shortHeader) [])]))

/-- R28, R88, R112, R175, R180, R208 (the stops by name are the model's reading, log 5): no operation of the receive
path runs while the link is closed; a chunk that overflows `CARRY_CAP` is given no meaning; an internal operation is not
run where nothing starts it. -/
def Obligations.StopsByName : Prop :=
  (∀ (b : Bytes) (q : SeqNo) (h : Option RtHeader) (x : RtHeader) (rv ft : BitVec 4) (s : State), s.rxClosed = true →
    ∀ i ∈ [Instr.rxChunk b, .frmUnpack b, .rxDataAck q h b, .rxDataNoack q h b, .rxRespAck q h b, .rxRespNack q h b,
        .rtHdr x b, .rspHdrDataAck h q rv b, .rspHdrDataNoack h q rv b, .rspHdrRespAck h q rv b,
        .rspHdrRespNack h q rv b, .rspHdrReserved h q ft rv b],
      exec i s = .refused .linkClosed) ∧
  (∀ (chunk : Bytes) (cap : Nat) (s : State), s.rxClosed = false → s.cfg.framingEn = true →
    s.params.carryCap = some cap → cap < (afterLastZero (s.carry ++ chunk)).length →
    exec (.rxChunk chunk) s = .refused .carryOverflow ∧ exec (.frmUnpack chunk) s = .refused .carryOverflow) ∧
  (∀ (b : Bytes) (q : SeqNo) (h : Option RtHeader) (s : State), s.rxClosed = false →
    s.cfg.relMode = .off ∨ (s.cfg.relMode = .below ∧ h ≠ none) ∨ (s.cfg.relMode = .above ∧ h = none) →
    ∀ i ∈ [Instr.rxDataAck q h b, .rxDataNoack q h b, .rxRespAck q h b, .rxRespNack q h b],
      exec i s = .refused .notStarted) ∧
  (∀ (b : Bytes) (s : State), s.rxClosed = false → s.cfg.framingEn = false →
    exec (.frmUnpack b) s = .refused .notStarted) ∧
  (∀ (q : SeqNo) (s : State), waitGet s q = .idle → exec (.waitPoll q) s = .refused .notStarted)

/-- R28, R55, R280: after `closed` nothing the agents present stores a response; `RX_CLOSED` is cleared by reset alone,
and `closed` itself changes nothing but the bit. -/
def Obligations.ClosedLinkStoresNothing : Prop :=
  (∀ s : State, exec .rxClosed s = .next { s with rxClosed := true }) ∧
  (∀ (s t : State) (x : Input) (rest : List Input), s.inbox = x :: rest → x.fromAgent = true → s.rxClosed = true →
    step s = .next t →
    (∀ q, pendGet t q = none ∨ pendGet t q = pendGet s q) ∧
    (t.rxClosed = true ∨ x = .resetPin ∨ ∃ a, x = commandInput 0x6F a))

/-- R209, R241, R245: one candidate with a failing check is dropped with one `DISCARD` event that names the first check
that fails and carries the whole candidate; nothing else happens. -/
def Obligations.FirstFailingCheckDiscards : Prop :=
  ∀ (x : Bytes) (s : State), s.rxClosed = false → (s.cfg.framingEn = true → s.carry = []) →
    let chunk := if s.cfg.framingEn then cobsEncode x ++ [0x00] else x
    let verified := s.cfg.verifyEn = true ∨ s.cfg.relMode ≠ .off
    let discards := fun e => exec (.rxChunk chunk) s = .next (s.emitting [.event (.discard e x)])
    (verified → x.length < 2 → discards (.checksum .short)) ∧
    (verified → 2 ≤ x.length → crc16 x ≠ 0 → discards (.checksum .residue)) ∧
    (∀ body : Bytes, (if verified then x = body ++ [(crc16 body).extractLsb' 8 8, (crc16 body).extractLsb' 0 8]
        else x = body) →
      (s.cfg.relMode ≠ .below → body = [] → discards (.malformed .shortHeader)) ∧
      (∀ h p, s.cfg.relMode ≠ .below → body = h :: p → h.toNat / 64 ≠ s.params.protocolVersion.toNat →
        discards (.protocolVersion (BitVec.ofNat 2 (h.toNat / 64)))) ∧
      (s.cfg.relMode = .below → body.length < 2 → discards (.malformed .shortHeader)) ∧
      (∀ b0 b1 p, s.cfg.relMode = .below → body = b0 :: b1 :: p → 3 < b1.toNat / 16 →
        discards (.malformed .badFrameType)) ∧
      (∀ h p, s.cfg.relMode = .above → body = h :: p → h.toNat / 64 = s.params.protocolVersion.toNat → p.length < 2 →
        discards (.malformed .shortHeader)) ∧
      (∀ h b0 b1 p, s.cfg.relMode = .above → body = h :: b0 :: b1 :: p →
        h.toNat / 64 = s.params.protocolVersion.toNat → 3 < b1.toNat / 16 → discards (.malformed .badFrameType)))

/-- R106, R232, R241, R243: a segment that cannot be decoded is one `DISCARD` event with the undecoded segment; nothing
else changes. -/
def Obligations.FramingErrorDiscards : Prop :=
  ∀ (x : Bytes) (s : State), s.rxClosed = false → s.cfg.framingEn = true → s.carry = [] → (0x00 : Byte) ∉ x →
    (x = [] → exec (.rxChunk (x ++ [0x00])) s = .next (s.emitting [.event (.discard (.framing .emptySegment) x)])) ∧
    (x ≠ [] → (¬∃ l : List CobsBlock, (∀ b ∈ l, b.good) ∧ x = blockBytes l) →
      exec (.rxChunk (x ++ [0x00])) s = .next (s.emitting [.event (.discard (.framing .truncatedBlock) x)]))

/-- R74, R139, R209, R210: the row `RTHDR` with `REL_MODE = OFF`: a packet, or a discard for the version. -/
def Obligations.RoutingHeaderRow : Prop :=
  ∀ (h : RtHeader) (p : Bytes) (s : State), s.rxClosed = false → s.cfg.relMode = .off →
    let body := packRtHeader h :: p
    let unit := if s.cfg.verifyEn then body ++ [(crc16 body).extractLsb' 8 8, (crc16 body).extractLsb' 0 8] else body
    exec (.rtHdr h p) s = .next (s.emitting [.event (
      if h.version = s.params.protocolVersion then .packet h p else .discard (.protocolVersion h.version) unit)])

/-- R76 to R79, R209: in a mode that has a reliability header, the four frame type rows start their operations whatever
the reserved bits are, and the reserved row is a discard. -/
def Obligations.ReliabilityHeaderRows : Prop :=
  ∀ (route : Option RtHeader) (q : SeqNo) (rv ft : BitVec 4) (d : Bytes) (s : State), s.rxClosed = false →
    (s.cfg.relMode = .below ∧ route = none) ∨
      (s.cfg.relMode = .above ∧ ∃ h, route = some h ∧ h.version = s.params.protocolVersion) →
    (∃ t, exec (.rspHdrDataAck route q rv d) s = .next t ∧ exec (.rxDataAck q route d) s = .next t) ∧
    (∃ t, exec (.rspHdrDataNoack route q rv d) s = .next t ∧ exec (.rxDataNoack q route d) s = .next t) ∧
    (∃ t, exec (.rspHdrRespAck route q rv d) s = .next t ∧ exec (.rxRespAck q route d) s = .next t) ∧
    (∃ t, exec (.rspHdrRespNack route q rv d) s = .next t ∧ exec (.rxRespNack q route d) s = .next t) ∧
    (4 ≤ ft.toNat →
      let body := (route.map packRtHeader).toList ++ q :: BitVec.ofNat 8 (16 * ft.toNat + rv.toNat) :: d
      exec (.rspHdrReserved route q ft rv d) s = .next (s.emitting [.event (.discard (.malformed .badFrameType)
        (body ++ [(crc16 body).extractLsb' 8 8, (crc16 body).extractLsb' 0 8]))]))

/-- R209, R274 (the header rows as the model reads them, log 8): in every mode, a header row does what `RX.CHUNK` does
with the frame that carries the same body. -/
def Obligations.HeaderRowsAreReception : Prop :=
  ∀ (i : Instr) (body : Bytes) (s : State),
    (match i with
      | .rtHdr h p => body = packRtHeader h :: p
      | .rspHdrDataAck r q rv p => body = (r.map packRtHeader).toList ++ q :: packRspByte 0 rv :: p
      | .rspHdrDataNoack r q rv p => body = (r.map packRtHeader).toList ++ q :: packRspByte 1 rv :: p
      | .rspHdrRespAck r q rv p => body = (r.map packRtHeader).toList ++ q :: packRspByte 2 rv :: p
      | .rspHdrRespNack r q rv p => body = (r.map packRtHeader).toList ++ q :: packRspByte 3 rv :: p
      | .rspHdrReserved r q ft rv p => body = (r.map packRtHeader).toList ++ q :: packRspByte ft rv :: p
      | _ => False) →
    s.rxClosed = false → (s.cfg.framingEn = true → s.carry = []) →
    ∃ t, exec i s = .next t ∧
      exec (.rxChunk (if s.cfg.verifyEn = true ∨ s.cfg.relMode ≠ .off then checkedFrame s body
        else uncheckedFrame s body)) s = .next t

/-- R213: what A sends with `TX.PLAIN` reaches B unchanged, in any chunking B's `CARRY_CAP` can hold after each chunk, as
exactly one `PACKET` event and no discard. -/
def Obligations.PlainPacketArrives : Prop :=
  ∀ (a b : State) (ch : Nat) (rr : BitVec 1) (p : Bytes) (chunks : List Bytes) (rest : List Input),
    a.WithinMax p → ch ≤ 15 → a.cfg.relMode = .off → a.cfg = b.cfg →
    a.params.protocolVersion = b.params.protocolVersion → b.rxClosed = false → (b.cfg.framingEn = true → b.carry = []) →
    b.inbox = chunks.map chunkInput ++ rest →
    ∃ (w : Bytes) (n : BitVec 32),
      exec (.txPlain ch rr p) a = .next (a.emitting [.link w, .result .ok (.size n)]) ∧
      ((b.cfg.framingEn = true ∧ chunks.flatten = w ∧
          ∀ k < chunks.length, b.WithinCap (afterLastZero (chunks.take k).flatten)) ∨
        (b.cfg.framingEn = false ∧ chunks = [w]) →
        Sys2Proof.core.run chunks.length b = .next ({ b with inbox := rest }.emitting
          [.event (.packet { version := b.params.protocolVersion, channel := BitVec.ofNat 4 ch,
                             requestResponse := rr, reserved := 0 } p)]))

/-! ### System operations -/

/-- R225: `NOP`, command code 0x00, returns `OK` and does nothing. -/
def Obligations.NopResult : Prop :=
  (∀ a : Args, decode (.cmd 0x00 a) = .ok .nop) ∧
  (∀ s : State, exec .nop s = .next (s.emitting [.result .ok .none]))

/-- R25, R220: `CFG.WR` writes the three fields and touches nothing else; bits 7:4 are ignored and read as 0; the reserved
mode is refused. -/
def Obligations.CfgWriteOutcomes : Prop :=
  ∀ (v : BitVec 8) (s : State),
    if v.toNat / 4 % 4 = 3 then
      exec (.cfgWr v) s = .next (s.emitting [.result (.error (.contract .cfgReserved)) .none])
    else
      ∃ c : Cfg, exec (.cfgWr v) s = .next ({ s with cfg := c }.emitting [.result .ok .none]) ∧
        c.framingEn = decide (v.toNat % 2 = 1) ∧ c.verifyEn = decide (v.toNat / 2 % 2 = 1) ∧
        c.relMode = (if v.toNat / 4 % 4 = 0 then .off else if v.toNat / 4 % 4 = 1 then .below else .above) ∧
        exec (.regRd 0) { s with cfg := c } =
          .next ({ s with cfg := c }.emitting [.result .ok (.value (BitVec.ofNat 32 (v.toNat % 16)))])

/-- R30, R222: `REG.RD` of every register number; a read changes nothing. Register 7 is stated where the length fits its
32 bits (log 3). -/
def Obligations.RegisterReads : Prop :=
  ∀ s : State,
    let reads := fun (n : BitVec 8) (v : Nat) =>
      exec (.regRd n) s = .next (s.emitting [.result .ok (.value (BitVec.ofNat 32 v))])
    reads 0 (s.cfg.framingEn.toNat + 2 * s.cfg.verifyEn.toNat + 4 * (match s.cfg.relMode with
      | .off => 0
      | .below => 1
      | .above => 2)) ∧
    reads 1 s.rxClosed.toNat ∧ reads 2 s.seq.toNat ∧ reads 3 s.params.protocolVersion.toNat ∧
    reads 4 s.timeoutDefault.toNat ∧ reads 5 10 ∧ reads 6 s.now.toNat ∧
    (s.carry.length < 2 ^ 32 → reads 7 s.carry.length) ∧
    reads 8 ((List.range 256).filter fun n => waitGet s (BitVec.ofNat 8 n) ≠ .idle).length ∧
    reads 9 ((List.range 256).filter fun n => pendGet s (BitVec.ofNat 8 n) ≠ none).length ∧
    ∀ n : BitVec 8, 9 < n.toNat →
      exec (.regRd n) s = .next (s.emitting [.result (.error (.contract .registerNumber)) .none])

/-- R223, R238: `REG.WR` writes `CFG` or `TIMEOUT_DEFAULT` and nothing else; every other number is refused. A value that is
no `u32` is a timeout out of range for number 4 and `field_range` for the others, before their own checks (log 7). -/
def Obligations.RegisterWrites : Prop :=
  (∀ (v : Nat) (s : State), v < 2 ^ 32 → exec (.regWr 0 v) s = exec (.cfgWr (BitVec.ofNat 8 v)) s ∧
    ∃ t, exec (.regWr 0 v) s = .next t) ∧
  (∀ (v : Nat) (s : State), exec (.regWr 4 v) s = .next (
    if v ≤ 2 ^ 31 - 1 then { s with timeoutDefault := BitVec.ofNat 32 v }.emitting [.result .ok .none]
    else s.emitting [.result (.error (.contract .timeoutRange)) .none])) ∧
  (∀ (n : BitVec 8) (v : Nat) (s : State), v < 2 ^ 32 → n ≠ 0 → n ≠ 4 → exec (.regWr n v) s = .next (s.emitting
    [.result (.error (.contract (if n.toNat ≤ 9 then .readOnly else .registerNumber))) .none])) ∧
  (∀ (n : BitVec 8) (v : Nat) (s : State), 2 ^ 32 ≤ v → n ≠ 4 →
    exec (.regWr n v) s = .next (s.emitting [.result (.error (.contract .fieldRange)) .none]))

/-- R40, R224, R260 to R262: after `RESET`, and after the reset input, every piece of state has its reset value, nothing
but the command's `OK` is output, and the parameters are unchanged. -/
def Obligations.ResetOutcomes : Prop :=
  (∀ s : State, ∃ t : State, exec .reset s = .next t ∧
    t.cfg = { framingEn := true, verifyEn := true, relMode := .off } ∧ t.rxClosed = false ∧ t.seq = 0 ∧
    t.timeoutDefault = 5000 ∧ t.now = 0 ∧ t.carry = [] ∧ (∀ q, pendGet t q = none) ∧ (∀ q, waitGet t q = .idle) ∧
    t.params = s.params ∧ t.out = s.out ++ [.result .ok .none]) ∧
  (∀ (s t : State) (rest : List Input), s.inbox = .resetPin :: rest → exec .reset { s with inbox := rest } = .next t →
    step s = .next { t with out := s.out })

/-- R226: `TICK` increments `NOW` modulo 2^32 and polls the due waiters in ascending order; a slot whose waiter completes
becomes idle and its entry empty, every other slot and entry is unchanged. -/
def Obligations.TickResult : Prop :=
  ∀ s : State, ∃ t : State, exec .tick s = .next t ∧
    t = { s with now := BitVec.ofNat 32 ((s.now.toNat + 1) % 2 ^ 32), pend := t.pend, wait := t.wait, out := t.out } ∧
    t.out = s.out ++ ((List.range 256).filterMap fun n =>
      tickEvent (s.now + 1) (BitVec.ofNat 8 n) (waitGet s (BitVec.ofNat 8 n)) (pendGet s (BitVec.ofNat 8 n))) ∧
    ∀ q, if (tickEvent (s.now + 1) q (waitGet s q) (pendGet s q)).isSome then
        waitGet t q = .idle ∧ pendGet t q = none
      else waitGet t q = waitGet s q ∧ pendGet t q = pendGet s q

/-! ### The whole machine -/

/-- R32, R34, R36, R111, R161, R176 (b), R279: a good state stays good, whatever is presented; in particular no waiter is
ever busy past the poll that ends it, and `PEND` never holds more than `256 * MAX_PAYLOAD` bytes (R161). -/
def Obligations.StepKeepsGood : Prop :=
  ∀ s t : State, s.Good → step s = .next t → t.Good ∧ ∀ m, t.params.maxPayload = some m → t.pendBytes ≤ 256 * m

/-- R7, R40: the state after reset is good, whatever the parameters; where nothing is said `CARRY_CAP` and `MAX_PAYLOAD`
are unbounded. -/
def Obligations.ResetIsGood : Prop :=
  (∀ p : Params, (State.resetWith p).Good ∧ (State.resetWith p).params = p) ∧
  State.reset.Good ∧ (∀ b, State.reset.WithinMax b) ∧ ∀ b, State.reset.WithinCap b

/-- R20, R29, R31, R33 to R36, R63, R115, R158 to R160: which operations write which state. An entry of `PEND` is made by a
received response or by `PEND.STORE`, and emptied by a poll, by the three operations on the table or by reset. R161: whatever
is received, every entry stays within a finite `MAX_PAYLOAD` and the table within `256 * MAX_PAYLOAD`; as long as no response
longer than `m` is delivered, every entry stays within `m` bytes too. What a longer payload leaves is free, log 10. -/
def Obligations.WritersOfState : Prop :=
  ∀ (i : Instr) (s t : State), exec i s = .next t →
    t.params = s.params ∧
    (t.seq ≠ s.seq → i = .seqNext ∨ i = .reset ∨ ∃ d timeout ch rr, i = .sendAck d timeout ch rr) ∧
    (t.now ≠ s.now → i = .tick ∨ i = .reset) ∧
    (t.cfg ≠ s.cfg → i = .reset ∨ (∃ v, i = .cfgWr v) ∨ ∃ v, i = .regWr 0 v) ∧
    (t.timeoutDefault ≠ s.timeoutDefault → i = .reset ∨ ∃ v, i = .regWr 4 v) ∧
    (t.carry ≠ s.carry → i = .reset ∨ (∃ c, i = .rxChunk c) ∨ ∃ c, i = .frmUnpack c) ∧
    (t.rxClosed ≠ s.rxClosed → i = .reset ∨ i = .rxClosed) ∧
    (∀ q, waitGet s q = .idle → waitGet t q ≠ .idle →
      q = s.seq + 1 ∧ ∃ d timeout ch rr, i = .sendAck d timeout ch rr) ∧
    (∀ q e, pendGet t q = some e → pendGet s q ≠ some e →
      (∃ h d, i = .rxRespAck q h d ∧ e.frameType = .ack ∧ (s.WithinMax d → e.data = d)) ∨
      (∃ h d, i = .rxRespNack q h d ∧ e.frameType = .nack ∧ (s.WithinMax d → e.data = d)) ∨
      (∃ d, i = .pendStore q e.frameType d ∧ (s.WithinMax d → e.data = d)) ∨
      (∃ c, i = .rxChunk c) ∨ Instr.arrivingBody i ≠ none) ∧
    (∀ q, pendGet t q = none → pendGet s q ≠ none →
      i = .pendTake q ∨ i = .pendPurge q ∨ i = .waitPoll q ∨ i = .tick ∨ i = .reset ∨
      (q = s.seq + 1 ∧ ∃ d timeout ch rr, i = .sendAck d timeout ch rr)) ∧
    (∀ m : Nat, s.PendWithin m → s.params.maxPayload = some m ∨ Instr.deliversWithin m s i →
      t.PendWithin m ∧ t.pendBytes ≤ 256 * m)

/-- R175, R261 (a): a busy waiter stays as it is without a `DONE` event, or becomes idle with exactly one; reset alone
drops it silently. -/
def Obligations.BusyWaiterCompletesOnce : Prop :=
  ∀ (i : Instr) (s t : State) (q : SeqNo) (t0 timeout : Ticks), exec i s = .next t → waitGet s q = .busy t0 timeout →
    ∃ l : List Output, t.out = s.out ++ l ∧
      ((waitGet t q = .busy t0 timeout ∧ l.filter (Output.isDone q) = []) ∨
       (waitGet t q = .idle ∧ i ≠ .reset ∧ (l.filter (Output.isDone q)).length = 1) ∨
       (waitGet t q = .idle ∧ i = .reset ∧ l.filter (Output.isDone q) = []))

/-- R176 (b), R235: with no response, ticks alone end a waiter at elapsed time `POLL * ceil(T / POLL)` and not before,
with one `DONE(TimeoutError)` event. -/
def Obligations.WaiterTimesOutOnSchedule : Prop :=
  ∀ (s : State) (q : SeqNo) (t0 timeout : Ticks) (n : Nat) (rest : List Input),
    waitGet s q = .busy t0 timeout → pendGet s q = none → timeout.toNat ≤ 2 ^ 31 - 1 →
    s.inbox = List.replicate n tickInput ++ rest →
    (s.now - t0).toNat < lastPoll timeout → n + (s.now - t0).toNat ≤ lastPoll timeout →
    ∃ (t : State) (l : List Output), Sys2Proof.core.run n s = .next t ∧ t.out = s.out ++ l ∧
      (n + (s.now - t0).toNat < lastPoll timeout →
        waitGet t q = .busy t0 timeout ∧ l.filter (Output.isDone q) = []) ∧
      (n + (s.now - t0).toNat = lastPoll timeout →
        waitGet t q = .idle ∧ l.filter (Output.isDone q) = [doneTimeout q])

/-- R162, R175, R226: a stored response stays in its entry until the next tick that brings its waiter's elapsed time
to a multiple of `POLL`, and is delivered by that tick, to that waiter. R285: between 0 and `POLL - 1` = 9 ticks pass with
the response waiting before the tick that delivers it: 0 where the elapsed time is 9 modulo 10, 9 where it is a multiple of 10
already. That R285 counts the ticks that pass is log 12, and that at such a multiple the next poll is meant, by R226 and R277,
and not the one just made, as R176 (a) can be read. -/
def Obligations.ResponseDeliveredAtNextPoll : Prop :=
  (∀ (s : State) (q : SeqNo) (t0 timeout : Ticks) (e : PendEntry) (n : Nat) (rest : List Input),
    waitGet s q = .busy t0 timeout → pendGet s q = some e → (s.now - t0).toNat + n < 2 ^ 32 →
    s.inbox = List.replicate n tickInput ++ rest → n ≤ 10 - (s.now - t0).toNat % 10 →
    ∃ (t : State) (l : List Output), Sys2Proof.core.run n s = .next t ∧ t.out = s.out ++ l ∧
      (n < 10 - (s.now - t0).toNat % 10 →
        waitGet t q = .busy t0 timeout ∧ pendGet t q = some e ∧ l.filter (Output.isDone q) = []) ∧
      (n = 10 - (s.now - t0).toNat % 10 →
        waitGet t q = .idle ∧ pendGet t q = none ∧ l.filter (Output.isDone q) = [doneResponse q e])) ∧
  (∀ (s : State) (q : SeqNo) (t0 timeout : Ticks) (e : PendEntry) (rest : List Input),
    waitGet s q = .busy t0 timeout → pendGet s q = some e → (s.now - t0).toNat + 10 < 2 ^ 32 →
    s.inbox = List.replicate 10 tickInput ++ rest →
    ∃ passed : Nat, passed ≤ 9 ∧ passed + (s.now - t0).toNat % 10 = 9 ∧
      (∀ j ≤ passed, ∃ (t : State) (l : List Output), Sys2Proof.core.run j s = .next t ∧ t.out = s.out ++ l ∧
        pendGet t q = some e ∧ l.filter (Output.isDone q) = []) ∧
      ∃ (t : State) (l : List Output), Sys2Proof.core.run (passed + 1) s = .next t ∧ t.out = s.out ++ l ∧
        pendGet t q = none ∧ l.filter (Output.isDone q) = [doneResponse q e])

/-- R185: over a link that delivers every frame intact, a `SEND.ACK` whose peer handler answers `(ok, r)` ends in
`DONE(status = OK, ok, data = r)`, here with the response stored at elapsed time 0, after the poll that `SEND.ACK` makes, and so collected by the poll at
elapsed time 10 (R226; log 12). Where `r` is longer than A's own `MAX_PAYLOAD`, the data of the event are free within it (R161;
log 10). -/
def Obligations.RequestIsAnswered : Prop :=
  ∀ (a b : State) (d : Bytes) (timeout : Option Nat) (ch : Nat) (rr : BitVec 1) (ans : Answer)
    (more : List Answer),
    a.WithinMax d → a.cfg.relMode ≠ .off → a.cfg = b.cfg → a.params.protocolVersion = b.params.protocolVersion →
    (if a.cfg.relMode = .above then ch ≤ 15 else ch ≤ 255) →
    0 < timeout.getD a.timeoutDefault.toNat → timeout.getD a.timeoutDefault.toNat ≤ 2 ^ 31 - 1 →
    waitGet a (a.seq + 1) = .idle → a.rxClosed = false → b.rxClosed = false → a.carry = [] → b.carry = [] →
    b.answers = ans :: more →
    ∃ (w w' : Bytes) (a1 a2 b1 : State) (req : HandlerRequest),
      exec (.sendAck d timeout ch rr) a = .next a1 ∧
      a1.out = a.out ++ [.link w, .result .ok (.sequence (a.seq + 1))] ∧
      exec (.rxChunk w) b = .next b1 ∧ b1.out = b.out ++ [.handler req ans, .link w'] ∧
      req.sequence = a.seq + 1 ∧ req.frameType = .dataAck ∧ req.data = d ∧
      exec (.rxChunk w') a1 = .next a2 ∧ a2.out = a1.out ∧
      ∀ rest, ∃ (a3 : State) (l : List Output),
        Sys2Proof.core.run 10 { a2 with inbox := List.replicate 10 tickInput ++ rest } = .next a3 ∧
        a3.out = a2.out ++ l ∧ waitGet a3 (a.seq + 1) = .idle ∧
        ∃ r : Bytes, (a.WithinMax ans.data → r = ans.data) ∧ a.WithinMax r ∧
          l.filter (Output.isDone (a.seq + 1)) = [.event (.done (a.seq + 1) .ok ans.ok r)]
end

