-- ==== Sys2Proof/Laws/State.lean ====
section
/-! SUPPORT. One lemma per field per update of the state, so that no later proof unfolds a record update. -/

namespace Sys2Proof.Machine

variable (s : State)

/-! ### `emit` -/

@[simp] theorem emit_cfg (o : Output) : (emit o s).cfg = s.cfg := rfl
@[simp] theorem emit_rxClosed (o : Output) : (emit o s).rxClosed = s.rxClosed := rfl
@[simp] theorem emit_seq (o : Output) : (emit o s).seq = s.seq := rfl
@[simp] theorem emit_timeoutDefault (o : Output) : (emit o s).timeoutDefault = s.timeoutDefault := rfl
@[simp] theorem emit_now (o : Output) : (emit o s).now = s.now := rfl
@[simp] theorem emit_carry (o : Output) : (emit o s).carry = s.carry := rfl
@[simp] theorem emit_pend (o : Output) : (emit o s).pend = s.pend := rfl
@[simp] theorem emit_wait (o : Output) : (emit o s).wait = s.wait := rfl
@[simp] theorem emit_params (o : Output) : (emit o s).params = s.params := rfl
@[simp] theorem emit_inbox (o : Output) : (emit o s).inbox = s.inbox := rfl
@[simp] theorem emit_answers (o : Output) : (emit o s).answers = s.answers := rfl
@[simp] theorem emit_freeAnswers (o : Output) : (emit o s).freeAnswers = s.freeAnswers := rfl
@[simp] theorem emit_out (o : Output) : (emit o s).out = s.out ++ [o] := rfl

/-! ### `reply` -/

@[simp] theorem reply_cfg (f : Fields) : (reply f s).cfg = s.cfg := rfl
@[simp] theorem reply_rxClosed (f : Fields) : (reply f s).rxClosed = s.rxClosed := rfl
@[simp] theorem reply_seq (f : Fields) : (reply f s).seq = s.seq := rfl
@[simp] theorem reply_timeoutDefault (f : Fields) : (reply f s).timeoutDefault = s.timeoutDefault := rfl
@[simp] theorem reply_now (f : Fields) : (reply f s).now = s.now := rfl
@[simp] theorem reply_carry (f : Fields) : (reply f s).carry = s.carry := rfl
@[simp] theorem reply_pend (f : Fields) : (reply f s).pend = s.pend := rfl
@[simp] theorem reply_wait (f : Fields) : (reply f s).wait = s.wait := rfl
@[simp] theorem reply_params (f : Fields) : (reply f s).params = s.params := rfl
@[simp] theorem reply_inbox (f : Fields) : (reply f s).inbox = s.inbox := rfl
@[simp] theorem reply_answers (f : Fields) : (reply f s).answers = s.answers := rfl
@[simp] theorem reply_freeAnswers (f : Fields) : (reply f s).freeAnswers = s.freeAnswers := rfl
@[simp] theorem reply_out (f : Fields) : (reply f s).out = s.out ++ [.result .ok f] := rfl

/-! ### `fail` -/

@[simp] theorem fail_cfg (e : Err) : (fail e s).cfg = s.cfg := rfl
@[simp] theorem fail_rxClosed (e : Err) : (fail e s).rxClosed = s.rxClosed := rfl
@[simp] theorem fail_seq (e : Err) : (fail e s).seq = s.seq := rfl
@[simp] theorem fail_timeoutDefault (e : Err) : (fail e s).timeoutDefault = s.timeoutDefault := rfl
@[simp] theorem fail_now (e : Err) : (fail e s).now = s.now := rfl
@[simp] theorem fail_carry (e : Err) : (fail e s).carry = s.carry := rfl
@[simp] theorem fail_pend (e : Err) : (fail e s).pend = s.pend := rfl
@[simp] theorem fail_wait (e : Err) : (fail e s).wait = s.wait := rfl
@[simp] theorem fail_params (e : Err) : (fail e s).params = s.params := rfl
@[simp] theorem fail_inbox (e : Err) : (fail e s).inbox = s.inbox := rfl
@[simp] theorem fail_answers (e : Err) : (fail e s).answers = s.answers := rfl
@[simp] theorem fail_freeAnswers (e : Err) : (fail e s).freeAnswers = s.freeAnswers := rfl
@[simp] theorem fail_out (e : Err) : (fail e s).out = s.out ++ [.result (.error e) .none] := rfl

/-! ### `discard` -/

@[simp] theorem discard_cfg (e : Err) (raw : Bytes) : (discard e raw s).cfg = s.cfg := rfl
@[simp] theorem discard_rxClosed (e : Err) (raw : Bytes) : (discard e raw s).rxClosed = s.rxClosed := rfl
@[simp] theorem discard_seq (e : Err) (raw : Bytes) : (discard e raw s).seq = s.seq := rfl
@[simp] theorem discard_timeoutDefault (e : Err) (raw : Bytes) : (discard e raw s).timeoutDefault = s.timeoutDefault := rfl
@[simp] theorem discard_now (e : Err) (raw : Bytes) : (discard e raw s).now = s.now := rfl
@[simp] theorem discard_carry (e : Err) (raw : Bytes) : (discard e raw s).carry = s.carry := rfl
@[simp] theorem discard_pend (e : Err) (raw : Bytes) : (discard e raw s).pend = s.pend := rfl
@[simp] theorem discard_wait (e : Err) (raw : Bytes) : (discard e raw s).wait = s.wait := rfl
@[simp] theorem discard_params (e : Err) (raw : Bytes) : (discard e raw s).params = s.params := rfl
@[simp] theorem discard_inbox (e : Err) (raw : Bytes) : (discard e raw s).inbox = s.inbox := rfl
@[simp] theorem discard_answers (e : Err) (raw : Bytes) : (discard e raw s).answers = s.answers := rfl
@[simp] theorem discard_freeAnswers (e : Err) (raw : Bytes) : (discard e raw s).freeAnswers = s.freeAnswers := rfl
@[simp] theorem discard_out (e : Err) (raw : Bytes) : (discard e raw s).out = s.out ++ [.event (.discard e raw)] := rfl

/-! ### `linkWrite` -/

@[simp] theorem linkWrite_cfg (b : Bytes) : (linkWrite b s).cfg = s.cfg := rfl
@[simp] theorem linkWrite_rxClosed (b : Bytes) : (linkWrite b s).rxClosed = s.rxClosed := rfl
@[simp] theorem linkWrite_seq (b : Bytes) : (linkWrite b s).seq = s.seq := rfl
@[simp] theorem linkWrite_timeoutDefault (b : Bytes) : (linkWrite b s).timeoutDefault = s.timeoutDefault := rfl
@[simp] theorem linkWrite_now (b : Bytes) : (linkWrite b s).now = s.now := rfl
@[simp] theorem linkWrite_carry (b : Bytes) : (linkWrite b s).carry = s.carry := rfl
@[simp] theorem linkWrite_pend (b : Bytes) : (linkWrite b s).pend = s.pend := rfl
@[simp] theorem linkWrite_wait (b : Bytes) : (linkWrite b s).wait = s.wait := rfl
@[simp] theorem linkWrite_params (b : Bytes) : (linkWrite b s).params = s.params := rfl
@[simp] theorem linkWrite_inbox (b : Bytes) : (linkWrite b s).inbox = s.inbox := rfl
@[simp] theorem linkWrite_answers (b : Bytes) : (linkWrite b s).answers = s.answers := rfl
@[simp] theorem linkWrite_freeAnswers (b : Bytes) : (linkWrite b s).freeAnswers = s.freeAnswers := rfl
@[simp] theorem linkWrite_out (b : Bytes) : (linkWrite b s).out = s.out ++ [.link b] := rfl

/-! ### `returned` -/

@[simp] theorem returned_cfg (r : Returned) : (returned r s).cfg = s.cfg := rfl
@[simp] theorem returned_rxClosed (r : Returned) : (returned r s).rxClosed = s.rxClosed := rfl
@[simp] theorem returned_seq (r : Returned) : (returned r s).seq = s.seq := rfl
@[simp] theorem returned_timeoutDefault (r : Returned) : (returned r s).timeoutDefault = s.timeoutDefault := rfl
@[simp] theorem returned_now (r : Returned) : (returned r s).now = s.now := rfl
@[simp] theorem returned_carry (r : Returned) : (returned r s).carry = s.carry := rfl
@[simp] theorem returned_pend (r : Returned) : (returned r s).pend = s.pend := rfl
@[simp] theorem returned_wait (r : Returned) : (returned r s).wait = s.wait := rfl
@[simp] theorem returned_params (r : Returned) : (returned r s).params = s.params := rfl
@[simp] theorem returned_inbox (r : Returned) : (returned r s).inbox = s.inbox := rfl
@[simp] theorem returned_answers (r : Returned) : (returned r s).answers = s.answers := rfl
@[simp] theorem returned_freeAnswers (r : Returned) : (returned r s).freeAnswers = s.freeAnswers := rfl
@[simp] theorem returned_out (r : Returned) : (returned r s).out = s.out ++ [.returned r] := rfl

/-! ### `txUnit` -/

@[simp] theorem txUnit_cfg (b : Bytes) : (txUnit b s).cfg = s.cfg := rfl
@[simp] theorem txUnit_rxClosed (b : Bytes) : (txUnit b s).rxClosed = s.rxClosed := rfl
@[simp] theorem txUnit_seq (b : Bytes) : (txUnit b s).seq = s.seq := rfl
@[simp] theorem txUnit_timeoutDefault (b : Bytes) : (txUnit b s).timeoutDefault = s.timeoutDefault := rfl
@[simp] theorem txUnit_now (b : Bytes) : (txUnit b s).now = s.now := rfl
@[simp] theorem txUnit_carry (b : Bytes) : (txUnit b s).carry = s.carry := rfl
@[simp] theorem txUnit_pend (b : Bytes) : (txUnit b s).pend = s.pend := rfl
@[simp] theorem txUnit_wait (b : Bytes) : (txUnit b s).wait = s.wait := rfl
@[simp] theorem txUnit_params (b : Bytes) : (txUnit b s).params = s.params := rfl
@[simp] theorem txUnit_inbox (b : Bytes) : (txUnit b s).inbox = s.inbox := rfl
@[simp] theorem txUnit_answers (b : Bytes) : (txUnit b s).answers = s.answers := rfl
@[simp] theorem txUnit_freeAnswers (b : Bytes) : (txUnit b s).freeAnswers = s.freeAnswers := rfl
@[simp] theorem txUnit_out (b : Bytes) : (txUnit b s).out = s.out ++ [.link (wireOf s.cfg b)] := rfl

/-! ### `relSend` -/

@[simp] theorem relSend_cfg (r : Route) (q : SeqNo) (ft : FrameType) (d : Bytes) : (relSend r q ft d s).cfg = s.cfg := rfl
@[simp] theorem relSend_rxClosed (r : Route) (q : SeqNo) (ft : FrameType) (d : Bytes) : (relSend r q ft d s).rxClosed = s.rxClosed := rfl
@[simp] theorem relSend_seq (r : Route) (q : SeqNo) (ft : FrameType) (d : Bytes) : (relSend r q ft d s).seq = s.seq := rfl
@[simp] theorem relSend_timeoutDefault (r : Route) (q : SeqNo) (ft : FrameType) (d : Bytes) : (relSend r q ft d s).timeoutDefault = s.timeoutDefault := rfl
@[simp] theorem relSend_now (r : Route) (q : SeqNo) (ft : FrameType) (d : Bytes) : (relSend r q ft d s).now = s.now := rfl
@[simp] theorem relSend_carry (r : Route) (q : SeqNo) (ft : FrameType) (d : Bytes) : (relSend r q ft d s).carry = s.carry := rfl
@[simp] theorem relSend_pend (r : Route) (q : SeqNo) (ft : FrameType) (d : Bytes) : (relSend r q ft d s).pend = s.pend := rfl
@[simp] theorem relSend_wait (r : Route) (q : SeqNo) (ft : FrameType) (d : Bytes) : (relSend r q ft d s).wait = s.wait := rfl
@[simp] theorem relSend_params (r : Route) (q : SeqNo) (ft : FrameType) (d : Bytes) : (relSend r q ft d s).params = s.params := rfl
@[simp] theorem relSend_inbox (r : Route) (q : SeqNo) (ft : FrameType) (d : Bytes) : (relSend r q ft d s).inbox = s.inbox := rfl
@[simp] theorem relSend_answers (r : Route) (q : SeqNo) (ft : FrameType) (d : Bytes) : (relSend r q ft d s).answers = s.answers := rfl
@[simp] theorem relSend_freeAnswers (r : Route) (q : SeqNo) (ft : FrameType) (d : Bytes) : (relSend r q ft d s).freeAnswers = s.freeAnswers := rfl
@[simp] theorem relSend_out (r : Route) (q : SeqNo) (ft : FrameType) (d : Bytes) : (relSend r q ft d s).out = s.out ++ [.link (wireOf s.cfg (relBody s.params.protocolVersion r q ft d))] := rfl

/-! ### `pendSet` -/

@[simp] theorem pendSet_cfg (q : SeqNo) (e : Option PendEntry) : (pendSet q e s).cfg = s.cfg := rfl
@[simp] theorem pendSet_rxClosed (q : SeqNo) (e : Option PendEntry) : (pendSet q e s).rxClosed = s.rxClosed := rfl
@[simp] theorem pendSet_seq (q : SeqNo) (e : Option PendEntry) : (pendSet q e s).seq = s.seq := rfl
@[simp] theorem pendSet_timeoutDefault (q : SeqNo) (e : Option PendEntry) : (pendSet q e s).timeoutDefault = s.timeoutDefault := rfl
@[simp] theorem pendSet_now (q : SeqNo) (e : Option PendEntry) : (pendSet q e s).now = s.now := rfl
@[simp] theorem pendSet_carry (q : SeqNo) (e : Option PendEntry) : (pendSet q e s).carry = s.carry := rfl
@[simp] theorem pendSet_pend (q : SeqNo) (e : Option PendEntry) : (pendSet q e s).pend = s.pend.set q.toNat e q.isLt := rfl
@[simp] theorem pendSet_wait (q : SeqNo) (e : Option PendEntry) : (pendSet q e s).wait = s.wait := rfl
@[simp] theorem pendSet_params (q : SeqNo) (e : Option PendEntry) : (pendSet q e s).params = s.params := rfl
@[simp] theorem pendSet_inbox (q : SeqNo) (e : Option PendEntry) : (pendSet q e s).inbox = s.inbox := rfl
@[simp] theorem pendSet_answers (q : SeqNo) (e : Option PendEntry) : (pendSet q e s).answers = s.answers := rfl
@[simp] theorem pendSet_freeAnswers (q : SeqNo) (e : Option PendEntry) : (pendSet q e s).freeAnswers = s.freeAnswers := rfl
@[simp] theorem pendSet_out (q : SeqNo) (e : Option PendEntry) : (pendSet q e s).out = s.out := rfl

/-! ### `waitSet` -/

@[simp] theorem waitSet_cfg (q : SeqNo) (w : Waiter) : (waitSet q w s).cfg = s.cfg := rfl
@[simp] theorem waitSet_rxClosed (q : SeqNo) (w : Waiter) : (waitSet q w s).rxClosed = s.rxClosed := rfl
@[simp] theorem waitSet_seq (q : SeqNo) (w : Waiter) : (waitSet q w s).seq = s.seq := rfl
@[simp] theorem waitSet_timeoutDefault (q : SeqNo) (w : Waiter) : (waitSet q w s).timeoutDefault = s.timeoutDefault := rfl
@[simp] theorem waitSet_now (q : SeqNo) (w : Waiter) : (waitSet q w s).now = s.now := rfl
@[simp] theorem waitSet_carry (q : SeqNo) (w : Waiter) : (waitSet q w s).carry = s.carry := rfl
@[simp] theorem waitSet_pend (q : SeqNo) (w : Waiter) : (waitSet q w s).pend = s.pend := rfl
@[simp] theorem waitSet_wait (q : SeqNo) (w : Waiter) : (waitSet q w s).wait = s.wait.set q.toNat w q.isLt := rfl
@[simp] theorem waitSet_params (q : SeqNo) (w : Waiter) : (waitSet q w s).params = s.params := rfl
@[simp] theorem waitSet_inbox (q : SeqNo) (w : Waiter) : (waitSet q w s).inbox = s.inbox := rfl
@[simp] theorem waitSet_answers (q : SeqNo) (w : Waiter) : (waitSet q w s).answers = s.answers := rfl
@[simp] theorem waitSet_freeAnswers (q : SeqNo) (w : Waiter) : (waitSet q w s).freeAnswers = s.freeAnswers := rfl
@[simp] theorem waitSet_out (q : SeqNo) (w : Waiter) : (waitSet q w s).out = s.out := rfl

/-! ### Reset -/

@[simp] theorem State.resetWith_params (p : Params) : (State.resetWith p).params = p := rfl
@[simp] theorem State.reset_params : State.reset.params = Config.params := rfl

@[simp] theorem resetBlock_cfg : (resetBlock s).cfg = State.reset.cfg := rfl
@[simp] theorem resetBlock_rxClosed : (resetBlock s).rxClosed = false := rfl
@[simp] theorem resetBlock_seq : (resetBlock s).seq = 0 := rfl
@[simp] theorem resetBlock_timeoutDefault : (resetBlock s).timeoutDefault = 5000 := rfl
@[simp] theorem resetBlock_now : (resetBlock s).now = 0 := rfl
@[simp] theorem resetBlock_carry : (resetBlock s).carry = [] := rfl
@[simp] theorem resetBlock_pend : (resetBlock s).pend = Vector.replicate 256 none := rfl
@[simp] theorem resetBlock_wait : (resetBlock s).wait = Vector.replicate 256 .idle := rfl
@[simp] theorem resetBlock_params : (resetBlock s).params = s.params := rfl
@[simp] theorem resetBlock_inbox : (resetBlock s).inbox = s.inbox := rfl
@[simp] theorem resetBlock_answers : (resetBlock s).answers = s.answers := rfl
@[simp] theorem resetBlock_freeAnswers : (resetBlock s).freeAnswers = s.freeAnswers := rfl
@[simp] theorem resetBlock_out : (resetBlock s).out = s.out := rfl

/-! ### `seqNext` and `takeAnswer` -/

@[simp] theorem seqNext_value : (seqNext s).1 = s.seq + 1 := rfl
@[simp] theorem seqNext_state : (seqNext s).2 = { s with seq := s.seq + 1 } := rfl

@[simp] theorem takeAnswer_cfg : (takeAnswer s).2.cfg = s.cfg := by unfold takeAnswer; split <;> rfl
@[simp] theorem takeAnswer_rxClosed : (takeAnswer s).2.rxClosed = s.rxClosed := by unfold takeAnswer; split <;> rfl
@[simp] theorem takeAnswer_seq : (takeAnswer s).2.seq = s.seq := by unfold takeAnswer; split <;> rfl
@[simp] theorem takeAnswer_timeoutDefault : (takeAnswer s).2.timeoutDefault = s.timeoutDefault := by unfold takeAnswer; split <;> rfl
@[simp] theorem takeAnswer_now : (takeAnswer s).2.now = s.now := by unfold takeAnswer; split <;> rfl
@[simp] theorem takeAnswer_carry : (takeAnswer s).2.carry = s.carry := by unfold takeAnswer; split <;> rfl
@[simp] theorem takeAnswer_pend : (takeAnswer s).2.pend = s.pend := by unfold takeAnswer; split <;> rfl
@[simp] theorem takeAnswer_wait : (takeAnswer s).2.wait = s.wait := by unfold takeAnswer; split <;> rfl
@[simp] theorem takeAnswer_params : (takeAnswer s).2.params = s.params := by unfold takeAnswer; split <;> rfl
@[simp] theorem takeAnswer_inbox : (takeAnswer s).2.inbox = s.inbox := by unfold takeAnswer; split <;> rfl
@[simp] theorem takeAnswer_out : (takeAnswer s).2.out = s.out := by unfold takeAnswer; split <;> rfl

/-! ### The two tables -/

@[simp] theorem pendGet_pendSet_same (q : SeqNo) (e : Option PendEntry) : pendGet (pendSet q e s) q = e := by
  simp [pendGet, pendSet]

theorem pendGet_pendSet_other {q r : SeqNo} (h : r ≠ q) (e : Option PendEntry) :
    pendGet (pendSet q e s) r = pendGet s r := by
  have h' : q.toNat ≠ r.toNat := fun c => h (BitVec.eq_of_toNat_eq c.symm)
  simp [pendGet, pendSet, h']

theorem pendGet_pendSet (q r : SeqNo) (e : Option PendEntry) :
    pendGet (pendSet q e s) r = if r = q then e else pendGet s r := by
  by_cases h : r = q
  · subst h; simp
  · simp [h, pendGet_pendSet_other s h]

@[simp] theorem waitGet_waitSet_same (q : SeqNo) (w : Waiter) : waitGet (waitSet q w s) q = w := by
  simp [waitGet, waitSet]

theorem waitGet_waitSet_other {q r : SeqNo} (h : r ≠ q) (w : Waiter) :
    waitGet (waitSet q w s) r = waitGet s r := by
  have h' : q.toNat ≠ r.toNat := fun c => h (BitVec.eq_of_toNat_eq c.symm)
  simp [waitGet, waitSet, h']

theorem waitGet_waitSet (q r : SeqNo) (w : Waiter) :
    waitGet (waitSet q w s) r = if r = q then w else waitGet s r := by
  by_cases h : r = q
  · subst h; simp
  · simp [h, waitGet_waitSet_other s h]

/-- The entries are the table. -/
theorem pend_ext {s t : State} (h : ∀ q, pendGet s q = pendGet t q) : s.pend = t.pend := by
  apply Vector.ext
  intro i hi
  simpa [pendGet, BitVec.toNat_ofNat, Nat.mod_eq_of_lt hi] using h (BitVec.ofNat 8 i)

/-- The slots are the table. -/
theorem wait_ext {s t : State} (h : ∀ q, waitGet s q = waitGet t q) : s.wait = t.wait := by
  apply Vector.ext
  intro i hi
  simpa [waitGet, BitVec.toNat_ofNat, Nat.mod_eq_of_lt hi] using h (BitVec.ofNat 8 i)

theorem pendGet_congr {s t : State} (h : s.pend = t.pend) (q : SeqNo) : pendGet s q = pendGet t q := by
  simp [pendGet, h]

theorem waitGet_congr {s t : State} (h : s.wait = t.wait) (q : SeqNo) : waitGet s q = waitGet t q := by
  simp [waitGet, h]

@[simp] theorem pendGet_emit (o : Output) (q : SeqNo) : pendGet (emit o s) q = pendGet s q := rfl
@[simp] theorem waitGet_emit (o : Output) (q : SeqNo) : waitGet (emit o s) q = waitGet s q := rfl
@[simp] theorem pendGet_waitSet (q r : SeqNo) (w : Waiter) : pendGet (waitSet q w s) r = pendGet s r := rfl
@[simp] theorem waitGet_pendSet (q r : SeqNo) (e : Option PendEntry) : waitGet (pendSet q e s) r = waitGet s r := rfl

/-- Two states with equal fields are one state. -/
theorem state_ext {s t : State} (cfg : s.cfg = t.cfg) (rxClosed : s.rxClosed = t.rxClosed) (seq : s.seq = t.seq)
    (timeoutDefault : s.timeoutDefault = t.timeoutDefault) (now : s.now = t.now) (carry : s.carry = t.carry)
    (pend : s.pend = t.pend) (wait : s.wait = t.wait) (params : s.params = t.params) (inbox : s.inbox = t.inbox)
    (answers : s.answers = t.answers) (freeAnswers : s.freeAnswers = t.freeAnswers) (out : s.out = t.out) : s = t := by
  cases s; cases t; simp_all

end Sys2Proof.Machine
end

