-- ==== Sys2Proof/Laws/Ops.lean ====
section
/-! SUPPORT. For each shared operation, what it can do, said once: the provers cite these and do not unfold it. -/

namespace Sys2Proof.Machine

/-! ### `emitting` -/

@[simp] theorem emitting_cfg (s : State) (l : List Output) : (s.emitting l).cfg = s.cfg := rfl
@[simp] theorem emitting_rxClosed (s : State) (l : List Output) : (s.emitting l).rxClosed = s.rxClosed := rfl
@[simp] theorem emitting_seq (s : State) (l : List Output) : (s.emitting l).seq = s.seq := rfl
@[simp] theorem emitting_timeoutDefault (s : State) (l : List Output) : (s.emitting l).timeoutDefault = s.timeoutDefault := rfl
@[simp] theorem emitting_now (s : State) (l : List Output) : (s.emitting l).now = s.now := rfl
@[simp] theorem emitting_carry (s : State) (l : List Output) : (s.emitting l).carry = s.carry := rfl
@[simp] theorem emitting_pend (s : State) (l : List Output) : (s.emitting l).pend = s.pend := rfl
@[simp] theorem emitting_wait (s : State) (l : List Output) : (s.emitting l).wait = s.wait := rfl
@[simp] theorem emitting_params (s : State) (l : List Output) : (s.emitting l).params = s.params := rfl
@[simp] theorem emitting_inbox (s : State) (l : List Output) : (s.emitting l).inbox = s.inbox := rfl
@[simp] theorem emitting_answers (s : State) (l : List Output) : (s.emitting l).answers = s.answers := rfl
@[simp] theorem emitting_freeAnswers (s : State) (l : List Output) : (s.emitting l).freeAnswers = s.freeAnswers := rfl
@[simp] theorem emitting_out (s : State) (l : List Output) : (s.emitting l).out = s.out ++ l := rfl
@[simp] theorem pendGet_emitting (s : State) (l : List Output) (q : SeqNo) : pendGet (s.emitting l) q = pendGet s q := rfl
@[simp] theorem waitGet_emitting (s : State) (l : List Output) (q : SeqNo) : waitGet (s.emitting l) q = waitGet s q := rfl

/-! ### Operands -/

theorem withinCapacity_iff {c : Option Nat} {n : Nat} : withinCapacity c n = true ↔ ∀ m, c = some m → n ≤ m := by
  cases c <;> simp [withinCapacity]

theorem payloadFits_of_withinMax {s : State} {b : Bytes} (h : s.WithinMax b) : payloadFits s.params b = true :=
  withinCapacity_iff.2 h

theorem carryFits_iff_withinCap {s : State} {b : Bytes} : carryFits s.params b = true ↔ s.WithinCap b :=
  withinCapacity_iff

theorem withPayload_eq {s : State} {b : Bytes} (h : s.WithinMax b) (t : State) : withPayload b s t = .next t := by
  simp [withPayload, payloadFits_of_withinMax h]

theorem cutToPayload_withinMax (s : State) (b : Bytes) : s.WithinMax (cutToPayload s.params b) := by
  intro m hm
  simp only [cutToPayload, hm]
  exact List.length_take_le _ _

theorem storedData_eq {s : State} {d : Bytes} (h : s.WithinMax d) (q : SeqNo) : storedData s.params q d = d := by
  simp [storedData, payloadFits_of_withinMax h]

/-- What `PEND` holds for a response is within `MAX_PAYLOAD`, whatever was received (R161). -/
theorem storedData_withinMax (s : State) (q : SeqNo) (d : Bytes) : s.WithinMax (storedData s.params q d) := by
  unfold storedData
  split
  · exact withinCapacity_iff.1 ‹_›
  · exact cutToPayload_withinMax s _

/-- It is never longer than what was received. -/
theorem storedData_length_le (p : Params) (q : SeqNo) (d : Bytes) : (storedData p q d).length ≤ d.length := by
  unfold storedData payloadFits withinCapacity cutToPayload
  cases p.maxPayload with
  | none => simp
  | some m => by_cases h : d.length ≤ m <;> simp [h]; omega

/-- `PEND.STORE` writes one entry. -/
theorem pendGet_pendStore (q r : SeqNo) (ft : RespType) (d : Bytes) (s : State) :
    pendGet (pendStore q ft d s) r =
      if r = q then some { frameType := ft, data := storedData s.params q d } else pendGet s r :=
  pendGet_pendSet s q r _

/-- A stored response keeps every entry within `MAX_PAYLOAD` (R161). -/
theorem pendStore_pendWithin {s : State} {m : Nat} (hm : s.params.maxPayload = some m) (h : s.PendWithin m) (q : SeqNo)
    (ft : RespType) (d : Bytes) : (pendStore q ft d s).PendWithin m := by
  intro r e he
  rw [pendGet_pendStore] at he
  split at he
  · cases he; exact storedData_withinMax s q d m hm
  · exact h r e he

theorem pendWithin_of_pend {s t : State} {m : Nat} (h : s.PendWithin m) (e : t.pend = s.pend) : t.PendWithin m := by
  intro q x hx
  exact h q x (by unfold pendGet at *; rw [← e]; exact hx)

/-- A command with a bytes operand answers a next state: its own, or the refusal of the operand. -/
theorem withPayload_cases (b : Bytes) (s t : State) :
    withPayload b s t = .next t ∨ withPayload b s t = .next (fail (.contract .fieldRange) s) := by
  unfold withPayload; split <;> simp

@[simp] theorem emitting_nil (s : State) : s.emitting [] = s := by simp [State.emitting]

theorem emit_eq (o : Output) (s : State) : emit o s = s.emitting [o] := rfl

@[simp] theorem emitting_emitting (s : State) (l m : List Output) :
    (s.emitting l).emitting m = s.emitting (l ++ m) := by simp [State.emitting]

/-! ### The handler -/

/-- The handler transaction takes the first waiting answer, or a free one, and emits one output. -/
theorem handler_eq (req : HandlerRequest) (s : State) :
    handler req s = ((takeAnswer s).1,
      { s with answers := s.answers.tail
               freeAnswers := if s.answers = [] then s.freeAnswers + 1 else s.freeAnswers
               out := s.out ++ [.handler req (takeAnswer s).1] }) := by
  unfold handler takeAnswer
  cases h : s.answers <;> simp [emit]

theorem takeAnswer_waiting {s : State} {a : Answer} {rest : List Answer} (h : s.answers = a :: rest) :
    (takeAnswer s).1 = a := by simp [takeAnswer, h]

theorem takeAnswer_free_withinMax {s : State} (h : s.answers = []) : s.WithinMax (takeAnswer s).1.data := by
  simp only [takeAnswer, h, freeAnswer]
  exact cutToPayload_withinMax s _

/-! ### The receive path -/

/-- An output the receive path can make: a link write, a packet, a discard with one of the four causes of R243, a handler
transaction. -/
def Output.ofReceive : Output → Bool
  | .link _ | .handler _ _ | .event (.packet _ _) => true
  | .event (.discard e _) => match e with
    | .framing _ | .checksum _ | .protocolVersion _ | .malformed _ => true
    | .timeout | .transport | .contract _ | .busy _ => false
  | .event (.done _ _ _ _) | .result _ _ | .returned _ => false

/-- What the receive path can do to a state: write `PEND`, each entry within `MAX_PAYLOAD`, take answers, add outputs of
its own. -/
def Received (s t : State) : Prop :=
  ∃ l : List Output, t = { s with pend := t.pend, answers := t.answers, freeAnswers := t.freeAnswers,
                                  out := s.out ++ l } ∧ (∀ o ∈ l, o.ofReceive = true) ∧
    ∀ m, s.params.maxPayload = some m → s.PendWithin m → t.PendWithin m

theorem Received.refl (s : State) : Received s s := ⟨[], by simp, by simp, fun _ _ h => h⟩

theorem Received.trans {s t u : State} (h : Received s t) (k : Received t u) : Received s u := by
  obtain ⟨l, hl, hl', hp⟩ := h
  obtain ⟨m, hm, hm', hp'⟩ := k
  refine ⟨l ++ m, ?_, ?_, fun n hn hs => hp' n (by rw [hl]; exact hn) (hp n hn hs)⟩
  · rw [hm, hl]; simp
  · intro o ho
    rcases List.mem_append.1 ho with h1 | h1
    · exact hl' o h1
    · exact hm' o h1

theorem received_emit {s : State} {o : Output} (h : o.ofReceive = true) : Received s (emit o s) :=
  ⟨[o], rfl, by simpa using h, fun _ _ h => h⟩

theorem received_handler (req : HandlerRequest) (s : State) : Received s (handler req s).2 := by
  rw [handler_eq]
  exact ⟨[.handler req (takeAnswer s).1], rfl, by simp [Output.ofReceive],
    fun _ _ h => h⟩

theorem received_relSend (r : Route) (q : SeqNo) (ft : FrameType) (d : Bytes) (s : State) :
    Received s (relSend r q ft d s) := received_emit rfl

theorem received_pendStore (q : SeqNo) (ft : RespType) (d : Bytes) (s : State) : Received s (pendStore q ft d s) :=
  ⟨[], by simp [pendStore, pendSet], by simp, fun _ hm h => pendStore_pendWithin hm h q ft d⟩

theorem received_dispatch (ft : FrameType) (q : SeqNo) (h : Option RtHeader) (d : Bytes) (s : State) :
    Received s (dispatch ft q h d s) := by
  cases ft with
  | dataAck => exact (received_handler _ s).trans (received_relSend _ _ _ _ _)
  | dataNoack => exact received_handler _ s
  | respAck => exact received_pendStore _ _ _ s
  | respNack => exact received_pendStore _ _ _ s

theorem rtUnpack_err {v : BitVec 2} {b : Bytes} {e : Err} (h : rtUnpack v b = .error e) (raw : Bytes) :
    (Output.event (.discard e raw)).ofReceive = true := by
  cases b with
  | nil => cases h; rfl
  | cons x p =>
    simp only [rtUnpack] at h
    split at h
    · cases h; rfl
    · cases h

theorem rspUnpack_err {b : Bytes} {e : Err} (h : rspUnpack b = .error e) (raw : Bytes) :
    (Output.event (.discard e raw)).ofReceive = true := by
  unfold rspUnpack at h
  split at h
  · split at h <;> cases h; rfl
  · cases h; rfl
  · cases h; rfl

theorem received_reliability (raw : Bytes) (h : Option RtHeader) (b : Bytes) (s : State) :
    Received s (receiveReliability raw h b s) := by
  unfold receiveReliability
  split
  · rename_i e he; exact received_emit (rspUnpack_err he raw)
  · exact received_dispatch _ _ _ _ _

theorem received_body (raw body : Bytes) (s : State) : Received s (receiveBody raw body s) := by
  unfold receiveBody
  split
  · split
    · rename_i e he; exact received_emit (rtUnpack_err he raw)
    · exact received_emit rfl
  · exact received_reliability _ _ _ _
  · split
    · rename_i e he; exact received_emit (rtUnpack_err he raw)
    · exact received_reliability _ _ _ _

theorem received_candidate (x : Bytes) (s : State) : Received s (processCandidate x s) := by
  unfold processCandidate
  split
  · split
    · exact received_emit rfl
    · exact received_body _ _ _
  · exact received_body _ _ _

theorem received_all (l : List Candidate) (s : State) : Received s (processAll l s) := by
  induction l generalizing s with
  | nil => exact .refl s
  | cons c l ih =>
    have h : Received s (processResult s c) := by
      cases c with
      | ok x => exact received_candidate x s
      | err r raw => exact received_emit rfl
    exact h.trans (ih _)

/-! The receive path does not read `CARRY`: processing candidates commutes with replacing the buffer. -/

@[simp] theorem takeAnswer_fst_of_carry (s : State) (c : Bytes) : (takeAnswer { s with carry := c }).1 = (takeAnswer s).1 := by
  unfold takeAnswer; cases s.answers <;> rfl

theorem receiveReliability_carry (raw : Bytes) (h : Option RtHeader) (b : Bytes) (s : State) (c : Bytes) :
    receiveReliability raw h b { s with carry := c } = { receiveReliability raw h b s with carry := c } := by
  unfold receiveReliability
  split
  · rfl
  · rename_i r _
    cases r.frameType <;>
      simp only [dispatch, onDataAck, onDataNoack, onRespAck, onRespNack, handler_eq, pendStore, pendSet, relSend, txUnit,
        linkWrite, emit, takeAnswer_fst_of_carry]

theorem receiveBody_carry (raw b : Bytes) (s : State) (c : Bytes) :
    receiveBody raw b { s with carry := c } = { receiveBody raw b s with carry := c } := by
  unfold receiveBody
  simp only
  split
  · split <;> rfl
  · exact receiveReliability_carry _ _ _ _ _
  · split
    · rfl
    · exact receiveReliability_carry _ _ _ _ _

theorem processCandidate_carry (x : Bytes) (s : State) (c : Bytes) :
    processCandidate x { s with carry := c } = { processCandidate x s with carry := c } := by
  unfold processCandidate
  simp only
  split
  · split
    · rfl
    · exact receiveBody_carry _ _ _ _
  · exact receiveBody_carry _ _ _ _

theorem processAll_carry (l : List Candidate) (s : State) (c : Bytes) :
    processAll l { s with carry := c } = { processAll l s with carry := c } := by
  induction l generalizing s with
  | nil => rfl
  | cons x l ih =>
    have h : processResult { s with carry := c } x = { processResult s x with carry := c } := by
      cases x with
      | ok x => exact processCandidate_carry x s c
      | err r raw => rfl
    show processAll l (processResult { s with carry := c } x) = _
    rw [h, ih]; rfl

@[simp] theorem processAll_append (l m : List Candidate) (s : State) :
    processAll (l ++ m) s = processAll m (processAll l s) := by simp [processAll]

/-! ### The waiter's poll and the tick -/

theorem pendSet_self {s : State} {q : SeqNo} (h : pendGet s q = none) : pendSet q none s = s := by
  refine state_ext rfl rfl rfl rfl rfl rfl ?_ rfl rfl rfl rfl rfl rfl
  refine pend_ext fun r => ?_
  rw [pendGet_pendSet]
  split
  · subst_vars; exact h.symm
  · rfl

theorem waitSet_self {s : State} {q : SeqNo} {w : Waiter} (h : waitGet s q = w) : waitSet q w s = s := by
  refine state_ext rfl rfl rfl rfl rfl rfl rfl ?_ rfl rfl rfl rfl rfl
  refine wait_ext fun r => ?_
  rw [waitGet_waitSet]
  split
  · subst_vars; rfl
  · rfl

theorem waitPoll_response {s : State} {q : SeqNo} {e : PendEntry} (h : pendGet s q = some e) (t0 timeout : Ticks) :
    waitPoll q t0 timeout s = (waitSet q .idle (pendSet q none s)).emitting [doneResponse q e] := by
  simp only [waitPoll, pendTake, h, doneResponse, emit_eq]
  cases e with | mk ft d => cases ft <;> rfl

theorem waitPoll_timeout {s : State} {q : SeqNo} {t0 timeout : Ticks} (h : pendGet s q = none)
    (ht : timeout.toNat ≤ (s.now - t0).toNat) :
    waitPoll q t0 timeout s = (waitSet q .idle s).emitting [doneTimeout q] := by
  simp only [waitPoll, pendTake, h, pendSet_self h]
  rw [if_pos (show timeout.toNat ≤ elapsed s t0 from ht)]; rfl

theorem waitPoll_waiting {s : State} {q : SeqNo} {t0 timeout : Ticks} (h : pendGet s q = none)
    (ht : (s.now - t0).toNat < timeout.toNat) : waitPoll q t0 timeout s = s := by
  simp only [waitPoll, pendTake, h, pendSet_self h]
  rw [if_neg (show ¬timeout.toNat ≤ elapsed s t0 from Nat.not_le_of_lt ht)]

/-- The one poll of a tick, from its event: it completes the slot and empties the entry, or does nothing. -/
theorem pollIfDue_eq (s : State) (q : SeqNo) :
    pollIfDue s q = match tickEvent s.now q (waitGet s q) (pendGet s q) with
      | some o => (waitSet q .idle (pendSet q none s)).emitting [o]
      | none => s := by
  unfold pollIfDue
  cases hw : waitGet s q with
  | idle => simp [tickEvent]
  | busy t0 timeout =>
    show (if (s.now - t0).toNat % Config.poll = 0 then waitPoll q t0 timeout s else s) = _
    by_cases hd : (s.now - t0).toNat % Config.poll = 0
    · rw [if_pos hd]
      cases he : pendGet s q with
      | some e => simp only [tickEvent, hd, waitPoll_response he, ne_eq, not_true_eq_false, if_false]
      | none =>
        by_cases ht : timeout.toNat ≤ (s.now - t0).toNat
        · simp only [tickEvent, hd, waitPoll_timeout he ht, pendSet_self he, ne_eq, not_true_eq_false, if_false]
          rw [if_pos ht]
        · simp only [tickEvent, hd, waitPoll_waiting he (Nat.lt_of_not_le ht), ne_eq, not_true_eq_false, if_false]
          rw [if_neg ht]
    · rw [if_neg hd]
      simp only [tickEvent]
      rw [if_pos hd]

/-- A poll of slot `q` leaves every other slot and entry as it was. -/
theorem pollIfDue_other (s : State) {q r : SeqNo} (h : r ≠ q) :
    waitGet (pollIfDue s q) r = waitGet s r ∧ pendGet (pollIfDue s q) r = pendGet s r := by
  rw [pollIfDue_eq]
  split
  · exact ⟨by rw [show ∀ l t, waitGet (State.emitting t l) r = waitGet t r from fun _ _ => rfl,
                  waitGet_waitSet_other _ h, waitGet_pendSet],
           by rw [show ∀ l t, pendGet (State.emitting t l) r = pendGet t r from fun _ _ => rfl,
                  pendGet_waitSet, pendGet_pendSet_other _ h]⟩
  · exact ⟨rfl, rfl⟩

/-- A poll writes `PEND`, `WAIT` and the outputs alone. -/
theorem pollIfDue_frame (s : State) (q : SeqNo) :
    pollIfDue s q = { s with pend := (pollIfDue s q).pend, wait := (pollIfDue s q).wait,
                             out := (pollIfDue s q).out } := by
  rw [pollIfDue_eq]
  split <;> rfl

/-- Polling distinct slots one after the other: each slot does what it would do alone. -/
theorem pollAll_spec (l : List SeqNo) (hl : l.Nodup) (s : State) :
    let t := l.foldl pollIfDue s
    t = { s with pend := t.pend, wait := t.wait, out := t.out } ∧
    t.out = s.out ++ l.filterMap (fun q => tickEvent s.now q (waitGet s q) (pendGet s q)) ∧
    ∀ q, if q ∈ l ∧ (tickEvent s.now q (waitGet s q) (pendGet s q)).isSome then
        waitGet t q = .idle ∧ pendGet t q = none
      else waitGet t q = waitGet s q ∧ pendGet t q = pendGet s q := by
  induction l generalizing s with
  | nil => simp
  | cons q l ih =>
    obtain ⟨hq, hl⟩ := List.nodup_cons.1 hl
    have ih := ih hl (pollIfDue s q)
    have hnow : (pollIfDue s q).now = s.now := by rw [pollIfDue_frame]
    have hoth : ∀ r, r ≠ q → waitGet (pollIfDue s q) r = waitGet s r ∧ pendGet (pollIfDue s q) r = pendGet s r :=
      fun r hr => pollIfDue_other s hr
    simp only [hnow] at ih
    obtain ⟨i1, i2, i3⟩ := ih
    refine ⟨?_, ?_, ?_⟩
    · simp only [List.foldl_cons]
      have hf := pollIfDue_frame s q
      rw [i1]
      rw [hf]
    · simp only [List.foldl_cons, List.filterMap_cons, i2]
      have : l.filterMap (fun r => tickEvent s.now r (waitGet (pollIfDue s q) r) (pendGet (pollIfDue s q) r)) =
          l.filterMap (fun r => tickEvent s.now r (waitGet s r) (pendGet s r)) := by
        apply List.filterMap_congr
        intro r hr
        have : r ≠ q := fun h => hq (h ▸ hr)
        simp [hoth r this]
      rw [this, pollIfDue_eq]
      cases tickEvent s.now q (waitGet s q) (pendGet s q) <;> simp [State.emitting]
    · intro r
      simp only [List.foldl_cons]
      have i3 := i3 r
      by_cases hr : r = q
      · subst hr
        simp only [hq, false_and, if_false] at i3
        rw [i3.1, i3.2, pollIfDue_eq]
        cases hte : tickEvent s.now r (waitGet s r) (pendGet s r) with
        | none => simp
        | some o =>
          simp only [pendGet_emitting, waitGet_emitting, waitGet_waitSet_same, pendGet_waitSet, pendGet_pendSet_same]
          simp
      · rw [(hoth r hr).1, (hoth r hr).2] at i3
        simpa [hr] using i3

theorem allSequences_nodup : allSequences.Nodup := by decide +kernel

theorem mem_allSequences (q : SeqNo) : q ∈ allSequences := by
  unfold allSequences
  exact List.mem_map.2 ⟨q.toNat, List.mem_range.2 q.isLt, by simp⟩

end Sys2Proof.Machine
end

