-- ==== Sys2Proof/Laws/Exec.lean ====
section
/-! SUPPORT. What a step can do, said once: the outcomes of `step` by the head of the inbox, and every next state `exec` can
answer, by kind of effect. The provers cite `exec_cases` and do not unfold `exec`. -/

namespace Sys2Proof.Machine

/-! ### The step -/

theorem step_idle {s : State} (h : s.inbox = []) : step s = .next s := by simp [step, h]

theorem step_resetPin {s : State} {rest : List Input} (h : s.inbox = .resetPin :: rest) :
    step s = .next (resetBlock { s with inbox := rest }) := by simp [step, h]

theorem step_serve {s : State} {t : Transaction} {rest : List Input} (h : s.inbox = .transaction t :: rest) :
    step s = serve t { s with inbox := rest } := by simp [step, h]

theorem serve_ok {t : Transaction} {i : Instr} (h : decode t = .ok i) (s : State) : serve t s = exec i s := by
  simp [serve, h]

theorem serve_badCommand {code : Byte} {a : Args} {e : DecodeError} (h : decodeCommand code a = .error e) (s : State) :
    serve (.cmd code a) s = .next (fail (commandError e) s) := by simp [serve, decode, h]

/-- A next state of `serve` is that of the decoded operation, or the refusal of a command record. -/
theorem serve_cases {t : Transaction} {s u : State} (h : serve t s = .next u) :
    (∃ i, decode t = .ok i ∧ exec i s = .next u) ∨
    (∃ code a e, t = .cmd code a ∧ decodeCommand code a = .error e ∧ u = fail (commandError e) s) := by
  unfold serve at h
  split at h
  · exact .inl ⟨_, ‹_›, h⟩
  · split at h
    · rename_i hd; cases h; exact .inr ⟨_, _, _, rfl, hd, rfl⟩
    · cases h
    · cases h

/-- A run of one more step is the step, then the run. -/
theorem run_succ {s t : State} (h : step s = .next t) (n : Nat) :
    Sys2Proof.core.run (n + 1) s = Sys2Proof.core.run n t := by
  have h' : Sys2Proof.core.step s = .next t := h
  simp only [Host.Core.run, h']

/-! ### Effects -/

/-- An output of a command that touches no waiter: a result, a link write, what an internal operation returns. -/
def Output.ofCommand : Output → Bool
  | .link _ | .returned _ | .result .ok _ => true
  | .result (.error e) _ => match e with
    | .transport | .timeout => false
    | .framing _ | .checksum _ | .protocolVersion _ | .malformed _ | .contract _ | .busy _ => true
  | .event _ | .handler _ _ => false

/-- The state after a `SEND.ACK` that is accepted, before its first poll (R172). -/
def requested (route : Route) (data : Bytes) (timeout : Ticks) (s : State) : State :=
  relSend route (s.seq + 1) .dataAck data
    (waitSet (s.seq + 1) (.busy s.now timeout) (pendSet (s.seq + 1) none { s with seq := s.seq + 1 }))

/-- The link delivers bytes, or a body arrives: the operations of the receive path on their own. -/
def receives : Instr → Bool
  | .rxDataAck _ _ _ | .rxDataNoack _ _ _ | .rxRespAck _ _ _ | .rxRespNack _ _ _ | .rtHdr _ _
  | .rspHdrDataAck _ _ _ _ | .rspHdrDataNoack _ _ _ _ | .rspHdrRespAck _ _ _ _ | .rspHdrRespNack _ _ _ _
  | .rspHdrReserved _ _ _ _ _ | .rxChunk _ | .frmUnpack _ => true
  | .nop | .cobsEnc _ | .cobsDec _ | .frmPack _ | .crcGen _ | .verPack _ | .verUnpack _ | .rtPack _ _ _ | .rtUnpack _
  | .rspPack _ _ _ | .rspUnpack _ | .sendNoack _ _ _ | .sendAck _ _ _ _ | .txPlain _ _ _ | .cfgWr _ | .regRd _
  | .regWr _ _ | .reset | .rxClosed | .seqNext | .seqNoack | .pendStore _ _ _ | .pendTake _ | .pendPurge _ | .tick
  | .waitPoll _ => false

/-- Every effect an operation can have on the state. -/
inductive Effect (s : State) : Instr → State → Prop where
  /-- Outputs only: a command's result, or its refusal; a frame written; a value returned. -/
  | outputs (i : Instr) (l : List Output) (h : ∀ o ∈ l, o.ofCommand = true) : Effect s i (s.emitting l)
  /-- `CFG` written. -/
  | config (i : Instr) (c : Cfg) (h : (∃ v, i = .cfgWr v) ∨ ∃ v, i = .regWr 0 v) :
    Effect s i ({ s with cfg := c }.emitting [.result .ok .none])
  /-- `TIMEOUT_DEFAULT` written. -/
  | timeout (v : Nat) (h : v ≤ 2 ^ 31 - 1) :
    Effect s (.regWr 4 v) ({ s with timeoutDefault := BitVec.ofNat 32 v }.emitting [.result .ok .none])
  /-- A request issued and polled once. -/
  | request (data : Bytes) (timeout : Option Nat) (channel : Nat) (rr : BitVec 1) (route : Route)
      (idle : waitGet s (s.seq + 1) = .idle)
      (legal : timeoutOf timeout s.timeoutDefault ≤ 2 ^ 31 - 1) :
    Effect s (.sendAck data timeout channel rr)
      ((waitPoll (s.seq + 1) s.now (BitVec.ofNat 32 (timeoutOf timeout s.timeoutDefault))
        (requested route data (BitVec.ofNat 32 (timeoutOf timeout s.timeoutDefault)) s)).emitting [.result .ok (.sequence (s.seq + 1))])
  /-- Reset. -/
  | reset : Effect s .reset ((resetBlock s).emitting [.result .ok .none])
  /-- Bytes received. -/
  | chunk (chunk : Bytes) (t : State) (fits : carryFits s.params (frameUnpack s.carry chunk).2 = true)
      (h : Received { s with carry := (frameUnpack s.carry chunk).2 } t) (isOpen : s.rxClosed = false) :
    Effect s (.rxChunk chunk) t
  /-- Bytes cut into segments. -/
  | segments (chunk : Bytes) (fits : carryFits s.params (frameUnpack s.carry chunk).2 = true)
      (isOpen : s.rxClosed = false) :
    Effect s (.frmUnpack chunk) ({ s with carry := (frameUnpack s.carry chunk).2 }.emitting
      [.returned (.candidates (frameUnpack s.carry chunk).1)])
  /-- A packet, a body or a frame received. -/
  | received (i : Instr) (t : State) (hi : receives i = true) (h : Received s t) (isOpen : s.rxClosed = false) :
    Effect s i t
  /-- The link closed. -/
  | closed : Effect s .rxClosed { s with rxClosed := true }
  /-- `SEQ` advanced. -/
  | sequence : Effect s .seqNext ({ s with seq := s.seq + 1 }.emitting [.returned (.sequence (s.seq + 1))])
  /-- An entry of `PEND` written. -/
  | pending (i : Instr) (q : SeqNo) (e : Option PendEntry) (l : List Output)
      (hi : (∃ ft d, i = .pendStore q ft d) ∨ i = .pendTake q ∨ i = .pendPurge q)
      (h : ∀ o ∈ l, o.ofCommand = true) : Effect s i ((pendSet q e s).emitting l)
  /-- A tick. -/
  | tick : Effect s .tick (tickOnce s)
  /-- One poll of a busy slot. -/
  | poll (q : SeqNo) (t0 timeout : Ticks) (h : waitGet s q = .busy t0 timeout) :
    Effect s (.waitPoll q) (waitPoll q t0 timeout s)

theorem effect_reply (i : Instr) (f : Fields) (s : State) : Effect s i (reply f s) :=
  .outputs i [.result .ok f] (by simp [Output.ofCommand])

theorem effect_fail (i : Instr) {e : Err} (h : (Output.result (.error e) .none).ofCommand = true) (s : State) :
    Effect s i (fail e s) := .outputs i [.result (.error e) .none] (by simpa using h)

theorem effect_withPayload {i : Instr} {b : Bytes} {s run t : State} (h : withPayload b s run = .next t)
    (k : Effect s i run) : Effect s i t := by
  rcases withPayload_cases b s run with e | e <;> rw [e] at h <;> cases h
  · exact k
  · exact effect_fail i rfl s

theorem channelOf_err {ch : Nat} {e : Err} (h : channelOf ch = .error e) : e = .contract .channelRange := by
  unfold channelOf at h; split at h <;> cases h; rfl

theorem rtPack_err {v : BitVec 2} {p : Bytes} {ch : Nat} {rr : BitVec 1} {e : Err} (h : rtPack v p ch rr = .error e) :
    e = .contract .channelRange := by
  unfold rtPack at h
  split at h
  · cases h; exact channelOf_err ‹_›
  · cases h

theorem sendRoute_err {m : RelMode} {ch : Nat} {rr : BitVec 1} {e : Err} (h : sendRoute m ch rr = .error e) :
    e = .contract .mode ∨ e = .contract .channelRange := by
  unfold sendRoute at h
  split at h
  · cases h; exact .inl rfl
  · split at h <;> cases h; exact .inr rfl
  · split at h
    · cases h; exact .inr (channelOf_err ‹_›)
    · cases h

theorem rspPack_err {q : SeqNo} {ft : BitVec 8} {p : Bytes} {e : Err} (h : rspPack q ft p = .error e) :
    e = .contract .frameTypeRange := by
  unfold rspPack at h; split at h <;> cases h; rfl

theorem rtUnpack_err_ofCommand {v : BitVec 2} {b : Bytes} {e : Err} (h : rtUnpack v b = .error e) :
    (Output.result (.error e) .none).ofCommand = true := by
  cases b with
  | nil => cases h; rfl
  | cons x p => simp only [rtUnpack] at h; split at h <;> cases h; rfl

theorem rspUnpack_err_ofCommand {b : Bytes} {e : Err} (h : rspUnpack b = .error e) :
    (Output.result (.error e) .none).ofCommand = true := by
  unfold rspUnpack at h
  split at h
  · split at h <;> cases h; rfl
  · cases h; rfl
  · cases h; rfl

theorem effect_writeCfg {i : Instr} (h : (∃ v, i = .cfgWr v) ∨ ∃ v, i = .regWr 0 v) (v : BitVec 8) (s : State) :
    Effect s i (writeCfg v s) := by
  unfold writeCfg
  split
  · exact effect_fail i rfl s
  · exact .config i _ h

theorem effect_whileOpen {i : Instr} {s t : State} {run : Result} (h : whileOpen s run = .next t)
    (k : s.rxClosed = false → run = .next t → Effect s i t) : Effect s i t := by
  unfold whileOpen at h
  split at h
  · cases h
  · rename_i ho; exact k (by simpa using ho) h

theorem effect_bodyArrives {i : Instr} {body : Bytes} {s t : State} (hi : receives i = true)
    (h : bodyArrives body s = .next t) : Effect s i t := by
  refine effect_whileOpen h fun ho hr => ?_
  cases hr
  exact .received i _ hi (received_body _ _ _) ho

theorem effect_whileReliable {i : Instr} {header : Option RtHeader} {s run t : State} (hi : receives i = true)
    (h : whileReliable header s run = .next t) (k : Received s run) : Effect s i t := by
  refine effect_whileOpen h fun ho hr => ?_
  split at hr <;> cases hr
  exact .received i _ hi k ho

theorem unpackChunk_cases {chunk : Bytes} {s : State} {r : List Candidate × State} (h : unpackChunk chunk s = .ok r) :
    carryFits s.params (frameUnpack s.carry chunk).2 = true ∧
    r = ((frameUnpack s.carry chunk).1, { s with carry := (frameUnpack s.carry chunk).2 }) := by
  unfold unpackChunk at h
  dsimp only at h
  split at h <;> cases h
  exact ⟨‹_›, rfl⟩

/-- Every next state of an operation is one of the effects. -/
theorem exec_cases {i : Instr} {s t : State} (h : exec i s = .next t) : Effect s i t := by
  cases i with
  | nop => cases h; exact effect_reply _ _ s
  | cobsEnc p => exact effect_withPayload h (effect_reply _ _ s)
  | cobsDec p =>
    refine effect_withPayload h ?_
    split
    · exact effect_reply _ _ s
    · exact effect_fail _ rfl s
  | frmPack p => exact effect_withPayload h (effect_reply _ _ s)
  | crcGen p => exact effect_withPayload h (effect_reply _ _ s)
  | verPack p => exact effect_withPayload h (effect_reply _ _ s)
  | verUnpack p =>
    refine effect_withPayload h ?_
    split
    · exact effect_reply _ _ s
    · exact effect_fail _ rfl s
  | rtPack p ch rr =>
    refine effect_withPayload h ?_
    split
    · exact effect_reply _ _ s
    · rename_i he; exact effect_fail _ (by rw [rtPack_err he]; rfl) s
  | rtUnpack p =>
    refine effect_withPayload h ?_
    split
    · exact effect_reply _ _ s
    · rename_i he; exact effect_fail _ (rtUnpack_err_ofCommand he) s
  | rspPack q ft p =>
    refine effect_withPayload h ?_
    split
    · exact effect_reply _ _ s
    · rename_i he; exact effect_fail _ (by rw [rspPack_err he]; rfl) s
  | rspUnpack p =>
    refine effect_withPayload h ?_
    split
    · exact effect_reply _ _ s
    · rename_i he; exact effect_fail _ (rspUnpack_err_ofCommand he) s
  | sendNoack d ch rr =>
    refine effect_withPayload h ?_
    split
    · rename_i he; rcases sendRoute_err he with rfl | rfl <;> exact effect_fail _ rfl s
    · rename_i route _
      have e : reply (.sent 1 []) (relSend route seqNoAck .dataNoack d s) = s.emitting
          [.link (wireOf s.cfg (relBody s.params.protocolVersion route seqNoAck .dataNoack d)), .result .ok (.sent 1 [])] := by
        simp [reply, relSend, txUnit, linkWrite, emit_eq]
      rw [e]; exact .outputs _ _ (by simp [Output.ofCommand])
  | sendAck d timeout ch rr =>
    refine effect_withPayload h ?_
    split
    · rename_i he; rcases sendRoute_err he with rfl | rfl <;> exact effect_fail _ rfl s
    · split
      · exact effect_fail _ rfl s
      · rename_i hle
        split
        · exact effect_fail _ rfl s
        · rename_i hidle
          exact .request d timeout ch rr _ hidle (Nat.le_of_not_lt hle)
  | txPlain ch rr p =>
    refine effect_withPayload h ?_
    split
    · exact effect_fail _ rfl s
    · split
      · rename_i he; exact effect_fail _ (by rw [rtPack_err he]; rfl) s
      · rename_i body _
        have e : reply (.size (length32 (wireOf s.cfg body).length)) (txUnit body s) = s.emitting
            [.link (wireOf s.cfg body), .result .ok (.size (length32 (wireOf s.cfg body).length))] := by
          simp [reply, txUnit, linkWrite, emit_eq]
        rw [e]; exact .outputs _ _ (by simp [Output.ofCommand])
  | cfgWr v => cases h; exact effect_writeCfg (.inl ⟨v, rfl⟩) v s
  | regRd n =>
    replace h : execRegRd n s = .next t := h
    unfold execRegRd at h
    split at h <;> cases h
    · exact effect_reply _ _ s
    · exact effect_fail _ rfl s
  | regWr n v =>
    replace h : execRegWr n v s = .next t := h
    unfold execRegWr at h
    split at h
    · rename_i hn
      have hn : n = 4 := BitVec.eq_of_toNat_eq (by simpa using hn)
      subst hn
      split at h <;> cases h
      · exact effect_fail _ rfl s
      · rename_i hle
        exact .timeout v (Nat.le_of_not_lt hle)
    · split at h
      · cases h; exact effect_fail _ rfl s
      · split at h
        · rename_i hn
          have hn : n = 0 := BitVec.eq_of_toNat_eq (by simpa using hn)
          subst hn
          cases h; exact effect_writeCfg (.inr ⟨v, rfl⟩) _ s
        · split at h <;> cases h <;> exact effect_fail _ rfl s
  | reset => cases h; exact .reset
  | rxChunk b =>
    refine effect_whileOpen h fun ho hr => ?_
    split at hr
    · split at hr <;> cases hr
      rename_i hu
      obtain ⟨hf, e⟩ := unpackChunk_cases hu
      cases e
      exact .chunk b _ hf (received_all _ _) ho
    · cases hr
      exact .received _ _ rfl (received_all _ _) ho
  | rxClosed => cases h; exact .closed
  | frmUnpack b =>
    refine effect_whileOpen h fun ho hr => ?_
    split at hr
    · split at hr <;> cases hr
      rename_i hu
      obtain ⟨hf, e⟩ := unpackChunk_cases hu
      cases e
      exact .segments b hf ho
    · cases hr
  | rxDataAck q hd d => exact effect_whileReliable rfl h ((received_handler _ s).trans (received_relSend _ _ _ _ _))
  | rxDataNoack q hd d => exact effect_whileReliable rfl h (received_handler _ s)
  | rxRespAck q hd d => exact effect_whileReliable rfl h (received_pendStore _ _ _ _)
  | rxRespNack q hd d => exact effect_whileReliable rfl h (received_pendStore _ _ _ _)
  | seqNext => cases h; exact .sequence
  | seqNoack => cases h; exact .outputs _ [.returned (.sequence 0)] (by simp [Output.ofCommand])
  | pendStore q ft d =>
    cases h
    have := Effect.pending (s := s) (.pendStore q ft d) q (some ⟨ft, storedData s.params q d⟩) [] (.inl ⟨ft, d, rfl⟩) (by simp)
    rwa [emitting_nil] at this
  | pendTake q =>
    cases h
    exact .pending (.pendTake q) q none [.returned (.entry (pendGet s q))] (.inr (.inl rfl)) (by simp [Output.ofCommand])
  | pendPurge q =>
    cases h
    have := Effect.pending (s := s) (.pendPurge q) q none [] (.inr (.inr rfl)) (by simp)
    rwa [emitting_nil] at this
  | tick =>
    obtain rfl : tickOnce s = t := by injection h
    exact .tick
  | waitPoll q =>
    replace h : execWaitPoll q s = .next t := h
    unfold execWaitPoll at h
    split at h <;> cases h
    exact .poll q _ _ ‹_›
  | rtHdr hd p => exact effect_bodyArrives rfl h
  | rspHdrDataAck hd q rv p => exact effect_bodyArrives rfl h
  | rspHdrDataNoack hd q rv p => exact effect_bodyArrives rfl h
  | rspHdrRespAck hd q rv p => exact effect_bodyArrives rfl h
  | rspHdrRespNack hd q rv p => exact effect_bodyArrives rfl h
  | rspHdrReserved hd q ft rv p => exact effect_bodyArrives rfl h

end Sys2Proof.Machine
end

