-- ==== Sys2Proof/Laws/PerInstr.lean ====
section
/-! SUPPORT. The family `EncodesRow`: an operation's encoding is selected by its own row of the opcode table. -/

namespace Sys2Proof.Laws

/-- All rows of spec/opcode_table.json. -/
def EncodesRow.rows : List OpRow := commandRows ++ operationRows ++ wireRows

/-- The row of an operation's mnemonic exists and selects the selector bits of its encoding (R74, R76, R77, R79, R86,
R88). -/
def EncodesRow.Statement (i : Instr) : Prop :=
  i.wf = true → ∃ r ∈ EncodesRow.rows,
    r.mnemonic = i.mnemonic ∧ r.selects (selectorOf (encode i)).1 (selectorOf (encode i)).2 = true

/-- The two bytes of a reliability header under the mask 0x00F0 are the frame type. -/
theorem EncodesRow.rspHeader_selects (q : SeqNo) (ft rv : BitVec 4) :
    (q.toNat * 256 + (packRspByte ft rv).toNat) &&& 0x00F0 = ft.toNat * 16 := by
  have h : ∀ (b : Byte) (ft rv : BitVec 4),
      (b.toNat * 256 + (packRspByte ft rv).toNat) &&& 0x00F0 = (packRspByte ft rv).toNat &&& 0x00F0 := by
    intro b ft rv
    have m : ∀ x : Nat, x &&& 0x00F0 = (x % 256) &&& 0x00F0 := by
      intro x
      apply Nat.eq_of_testBit_eq
      intro i
      by_cases hi : i < 8
      · rw [Nat.testBit_and, Nat.testBit_and, show (256 : Nat) = 2 ^ 8 from rfl, Nat.testBit_mod_two_pow]
        simp [hi]
      · have : Nat.testBit 0x00F0 i = false := Nat.testBit_lt_two_pow (Nat.lt_of_lt_of_le (by decide : 0xF0 < 2 ^ 8)
          (Nat.pow_le_pow_right (by decide) (Nat.le_of_not_lt hi)))
        simp [Nat.testBit_and, this]
    rw [m, m (packRspByte ft rv).toNat]
    congr 1
    omega
  rw [h]
  revert ft rv
  decide +kernel

theorem EncodesRow.nop : EncodesRow.Statement .nop := fun _ =>
  ⟨⟨"NOP", 8, 0xFF, 0x00⟩, by decide, rfl, by simp only [encode, selectorOf]; decide⟩
theorem EncodesRow.cobsEnc (payload : Bytes) : EncodesRow.Statement (.cobsEnc payload) := fun _ =>
  ⟨⟨"COBS.ENC", 8, 0xFF, 0x01⟩, by decide, rfl, by simp only [encode, selectorOf]; decide⟩
theorem EncodesRow.cobsDec (segment : Bytes) : EncodesRow.Statement (.cobsDec segment) := fun _ =>
  ⟨⟨"COBS.DEC", 8, 0xFF, 0x02⟩, by decide, rfl, by simp only [encode, selectorOf]; decide⟩
theorem EncodesRow.frmPack (payload : Bytes) : EncodesRow.Statement (.frmPack payload) := fun _ =>
  ⟨⟨"FRM.PACK", 8, 0xFF, 0x03⟩, by decide, rfl, by simp only [encode, selectorOf]; decide⟩
theorem EncodesRow.crcGen (data : Bytes) : EncodesRow.Statement (.crcGen data) := fun _ =>
  ⟨⟨"CRC.GEN", 8, 0xFF, 0x10⟩, by decide, rfl, by simp only [encode, selectorOf]; decide⟩
theorem EncodesRow.verPack (payload : Bytes) : EncodesRow.Statement (.verPack payload) := fun _ =>
  ⟨⟨"VER.PACK", 8, 0xFF, 0x11⟩, by decide, rfl, by simp only [encode, selectorOf]; decide⟩
theorem EncodesRow.verUnpack (wire : Bytes) : EncodesRow.Statement (.verUnpack wire) := fun _ =>
  ⟨⟨"VER.UNPACK", 8, 0xFF, 0x12⟩, by decide, rfl, by simp only [encode, selectorOf]; decide⟩
theorem EncodesRow.rtPack (payload : Bytes) (channel : Nat) (requestResponse : BitVec 1) : EncodesRow.Statement (.rtPack payload channel requestResponse) :=
  fun _ =>
  ⟨⟨"RT.PACK", 8, 0xFF, 0x20⟩, by decide, rfl, by simp only [encode, selectorOf]; decide⟩
theorem EncodesRow.rtUnpack (framed : Bytes) : EncodesRow.Statement (.rtUnpack framed) := fun _ =>
  ⟨⟨"RT.UNPACK", 8, 0xFF, 0x21⟩, by decide, rfl, by simp only [encode, selectorOf]; decide⟩
theorem EncodesRow.rspPack (sequence : SeqNo) (frameType : BitVec 8) (payload : Bytes) : EncodesRow.Statement (.rspPack sequence frameType payload) :=
  fun _ =>
  ⟨⟨"RSP.PACK", 8, 0xFF, 0x22⟩, by decide, rfl, by simp only [encode, selectorOf]; decide⟩
theorem EncodesRow.rspUnpack (framed : Bytes) : EncodesRow.Statement (.rspUnpack framed) := fun _ =>
  ⟨⟨"RSP.UNPACK", 8, 0xFF, 0x23⟩, by decide, rfl, by simp only [encode, selectorOf]; decide⟩
theorem EncodesRow.sendNoack (data : Bytes) (channel : Nat) (requestResponse : BitVec 1) : EncodesRow.Statement (.sendNoack data channel requestResponse) :=
  fun _ =>
  ⟨⟨"SEND.NOACK", 8, 0xFF, 0x40⟩, by decide, rfl, by simp only [encode, selectorOf]; decide⟩
theorem EncodesRow.sendAck (data : Bytes) (timeout : Option Nat) (channel : Nat) (requestResponse : BitVec 1) : EncodesRow.Statement (.sendAck data timeout channel requestResponse) :=
  fun _ =>
  ⟨⟨"SEND.ACK", 8, 0xFF, 0x41⟩, by decide, rfl, by simp only [encode, selectorOf]; decide⟩
theorem EncodesRow.txPlain (channel : Nat) (requestResponse : BitVec 1) (payload : Bytes) : EncodesRow.Statement (.txPlain channel requestResponse payload) :=
  fun _ =>
  ⟨⟨"TX.PLAIN", 8, 0xFF, 0x48⟩, by decide, rfl, by simp only [encode, selectorOf]; decide⟩
theorem EncodesRow.cfgWr (value : BitVec 8) : EncodesRow.Statement (.cfgWr value) := fun _ =>
  ⟨⟨"CFG.WR", 8, 0xFF, 0x60⟩, by decide, rfl, by simp only [encode, selectorOf]; decide⟩
theorem EncodesRow.regRd (number : BitVec 8) : EncodesRow.Statement (.regRd number) := fun _ =>
  ⟨⟨"REG.RD", 8, 0xFF, 0x61⟩, by decide, rfl, by simp only [encode, selectorOf]; decide⟩
theorem EncodesRow.regWr (number : BitVec 8) (value : Nat) : EncodesRow.Statement (.regWr number value) :=
  fun _ =>
  ⟨⟨"REG.WR", 8, 0xFF, 0x62⟩, by decide, rfl, by simp only [encode, selectorOf]; decide⟩
theorem EncodesRow.reset : EncodesRow.Statement .reset := fun _ =>
  ⟨⟨"RESET", 8, 0xFF, 0x6F⟩, by decide, rfl, by simp only [encode, selectorOf]; decide⟩
theorem EncodesRow.rxChunk (chunk : Bytes) : EncodesRow.Statement (.rxChunk chunk) := fun _ =>
  ⟨⟨"RX.CHUNK", 8, 0xFF, 0x80⟩, by decide, rfl, by simp only [encode, selectorOf]; decide⟩
theorem EncodesRow.rxClosed : EncodesRow.Statement .rxClosed := fun _ =>
  ⟨⟨"RX.CLOSED", 8, 0xFF, 0x81⟩, by decide, rfl, by simp only [encode, selectorOf]; decide⟩
theorem EncodesRow.frmUnpack (chunk : Bytes) : EncodesRow.Statement (.frmUnpack chunk) := fun _ =>
  ⟨⟨"FRM.UNPACK", 8, 0xFF, 0x82⟩, by decide, rfl, by simp only [encode, selectorOf]; decide⟩
theorem EncodesRow.rxDataAck (sequence : SeqNo) (header : Option RtHeader) (data : Bytes) : EncodesRow.Statement (.rxDataAck sequence header data) :=
  fun _ =>
  ⟨⟨"RX.DATA_ACK", 8, 0xFF, 0x84⟩, by decide, rfl, by simp only [encode, selectorOf]; decide⟩
theorem EncodesRow.rxDataNoack (sequence : SeqNo) (header : Option RtHeader) (data : Bytes) : EncodesRow.Statement (.rxDataNoack sequence header data) :=
  fun _ =>
  ⟨⟨"RX.DATA_NOACK", 8, 0xFF, 0x85⟩, by decide, rfl, by simp only [encode, selectorOf]; decide⟩
theorem EncodesRow.rxRespAck (sequence : SeqNo) (header : Option RtHeader) (data : Bytes) : EncodesRow.Statement (.rxRespAck sequence header data) :=
  fun _ =>
  ⟨⟨"RX.RESP_ACK", 8, 0xFF, 0x86⟩, by decide, rfl, by simp only [encode, selectorOf]; decide⟩
theorem EncodesRow.rxRespNack (sequence : SeqNo) (header : Option RtHeader) (data : Bytes) : EncodesRow.Statement (.rxRespNack sequence header data) :=
  fun _ =>
  ⟨⟨"RX.RESP_NACK", 8, 0xFF, 0x87⟩, by decide, rfl, by simp only [encode, selectorOf]; decide⟩
theorem EncodesRow.seqNext : EncodesRow.Statement .seqNext := fun _ =>
  ⟨⟨"SEQ.NEXT", 8, 0xFF, 0x90⟩, by decide, rfl, by simp only [encode, selectorOf]; decide⟩
theorem EncodesRow.seqNoack : EncodesRow.Statement .seqNoack := fun _ =>
  ⟨⟨"SEQ.NOACK", 8, 0xFF, 0x91⟩, by decide, rfl, by simp only [encode, selectorOf]; decide⟩
theorem EncodesRow.pendStore (sequence : SeqNo) (frameType : RespType) (data : Bytes) : EncodesRow.Statement (.pendStore sequence frameType data) :=
  fun _ =>
  ⟨⟨"PEND.STORE", 8, 0xFF, 0x92⟩, by decide, rfl, by simp only [encode, selectorOf]; decide⟩
theorem EncodesRow.pendTake (sequence : SeqNo) : EncodesRow.Statement (.pendTake sequence) := fun _ =>
  ⟨⟨"PEND.TAKE", 8, 0xFF, 0x93⟩, by decide, rfl, by simp only [encode, selectorOf]; decide⟩
theorem EncodesRow.pendPurge (sequence : SeqNo) : EncodesRow.Statement (.pendPurge sequence) := fun _ =>
  ⟨⟨"PEND.PURGE", 8, 0xFF, 0x94⟩, by decide, rfl, by simp only [encode, selectorOf]; decide⟩
theorem EncodesRow.tick : EncodesRow.Statement .tick := fun _ =>
  ⟨⟨"TICK", 8, 0xFF, 0xA0⟩, by decide, rfl, by simp only [encode, selectorOf]; decide⟩
theorem EncodesRow.waitPoll (sequence : SeqNo) : EncodesRow.Statement (.waitPoll sequence) := fun _ =>
  ⟨⟨"WAIT.POLL", 8, 0xFF, 0xA1⟩, by decide, rfl, by simp only [encode, selectorOf]; decide⟩
theorem EncodesRow.rtHdr (header : RtHeader) (payload : Bytes) : EncodesRow.Statement (.rtHdr header payload) :=
  fun _ =>
  ⟨⟨"RTHDR", 8, 0x00, 0x00⟩, by decide, rfl, by simp [OpRow.selects, encode, selectorOf]⟩
theorem EncodesRow.rspHdrDataAck (route : Option RtHeader) (sequence : SeqNo) (reserved : BitVec 4) (payload : Bytes) : EncodesRow.Statement (.rspHdrDataAck route sequence reserved payload) :=
  fun _ =>
  ⟨⟨"RSPHDR.DATA_ACK", 16, 0x00F0, 0x0000⟩, by decide, rfl, by
    simp only [OpRow.selects, encode, encodeRspHeader, selectorOf, EncodesRow.rspHeader_selects]; rfl⟩
theorem EncodesRow.rspHdrDataNoack (route : Option RtHeader) (sequence : SeqNo) (reserved : BitVec 4) (payload : Bytes) : EncodesRow.Statement (.rspHdrDataNoack route sequence reserved payload) :=
  fun _ =>
  ⟨⟨"RSPHDR.DATA_NOACK", 16, 0x00F0, 0x0010⟩, by decide, rfl, by
    simp only [OpRow.selects, encode, encodeRspHeader, selectorOf, EncodesRow.rspHeader_selects]; rfl⟩
theorem EncodesRow.rspHdrRespAck (route : Option RtHeader) (sequence : SeqNo) (reserved : BitVec 4) (payload : Bytes) : EncodesRow.Statement (.rspHdrRespAck route sequence reserved payload) :=
  fun _ =>
  ⟨⟨"RSPHDR.RESP_ACK", 16, 0x00F0, 0x0020⟩, by decide, rfl, by
    simp only [OpRow.selects, encode, encodeRspHeader, selectorOf, EncodesRow.rspHeader_selects]; rfl⟩
theorem EncodesRow.rspHdrRespNack (route : Option RtHeader) (sequence : SeqNo) (reserved : BitVec 4) (payload : Bytes) : EncodesRow.Statement (.rspHdrRespNack route sequence reserved payload) :=
  fun _ =>
  ⟨⟨"RSPHDR.RESP_NACK", 16, 0x00F0, 0x0030⟩, by decide, rfl, by
    simp only [OpRow.selects, encode, encodeRspHeader, selectorOf, EncodesRow.rspHeader_selects]; rfl⟩
theorem EncodesRow.rspHdrReserved (route : Option RtHeader) (sequence : SeqNo) (frameType : BitVec 4) (reserved : BitVec 4) (payload : Bytes) : EncodesRow.Statement (.rspHdrReserved route sequence frameType reserved payload) :=
  fun _ =>
  ⟨⟨"RSPHDR.reserved", 16, 0x0000, 0x0000⟩, by decide, rfl, by simp [OpRow.selects, encode, encodeRspHeader, selectorOf]⟩

end Sys2Proof.Laws
end

