-- ==== Sys2Proof/Tests/Slice0.lean ====
section
/-! SUPPORT. Tests of the model: the check of WellFormed, decoding of words written out from the spec's tables, one step
each on vectors of 95_test_vectors.md, and for every obligation with hypotheses a state and operands that meet them. -/

namespace Sys2Proof.Tests

set_option Elab.async false

open Sys2Proof.Machine

/-! ### Small states -/

/-- The reset state with the parameters of 95_test_vectors.md: version 0, nothing bounded. -/
def s0 : State := { State.reset with params := { protocolVersion := 0, carryCap := none, maxPayload := none } }

/-- The same in another configuration: `FRAMING_EN`, `VERIFY_EN`, `REL_MODE`. -/
def withCfg (framingEn verifyEn : Bool) (m : RelMode) : State :=
  { s0 with cfg := { framingEn := framingEn, verifyEn := verifyEn, relMode := m } }

def below : State := withCfg true true .below
def above : State := withCfg true true .above

/-- A finite block: carry-over of 2 bytes, operands of 2 bytes. -/
def tight : State := { s0 with params := { protocolVersion := 0, carryCap := some 2, maxPayload := some 2 } }

/-- A transaction waits. -/
def asking (s : State) (l : List Input) : State := { s with inbox := l }

/-- A waiter of sequence number `q` is busy. -/
def waiting (q : SeqNo) (t0 timeout now : Ticks) (s : State) : State := waitSet q (.busy t0 timeout) { s with now := now }

/-- The outputs of a next state. -/
def outs : Result → Option (List Output)
  | .next t => some t.out
  | .fault _ => none
  | .refused _ => none

/-- A field of a next state. -/
def after {α : Type} (f : State → α) : Result → Option α
  | .next t => some (f t)
  | .fault _ => none
  | .refused _ => none

/-- The operation a transaction selects. -/
def decoded (t : Transaction) : Option Instr :=
  match decode t with
  | .ok i => some i
  | .error _ => none

def hello : Bytes := [0x68, 0x65, 0x6C, 0x6C, 0x6F]
def ping : Bytes := [0x70, 0x69, 0x6E, 0x67]
def pong : Bytes := [0x70, 0x6F, 0x6E, 0x67]
def upTo (n : Nat) : Bytes := (List.range n).map fun i => BitVec.ofNat 8 (i + 1)
def refusedWith (e : Err) : Option (List Output) := some [.result (.error e) .none]

/-! ### WellFormed (R79: the reserved row stands for the frame types 4 to 15) -/

theorem test_wf_refuses_named_frame_type : Instr.wf (.rspHdrReserved none 1 3 0 []) = false := by decide
theorem test_wf_accepts_reserved_frame_type : Instr.wf (.rspHdrReserved none 1 4 0 []) = true := by decide

/-! ### Decoding, the words written out from R74, R76, R77, R86 and R88 -/

theorem test_decode_nop : decoded (.cmd 0b00000000 {}) = some .nop := by decide
theorem test_decode_cobsEnc : decoded (.cmd 0b00000001 { bytes := [7] }) = some (.cobsEnc [7]) := by decide
theorem test_decode_cobsDec : decoded (.cmd 0b00000010 { bytes := [7] }) = some (.cobsDec [7]) := by decide
theorem test_decode_frmPack : decoded (.cmd 0b00000011 { bytes := [7] }) = some (.frmPack [7]) := by decide
theorem test_decode_crcGen : decoded (.cmd 0b00010000 { bytes := [7] }) = some (.crcGen [7]) := by decide
theorem test_decode_verPack : decoded (.cmd 0b00010001 { bytes := [7] }) = some (.verPack [7]) := by decide
theorem test_decode_verUnpack : decoded (.cmd 0b00010010 { bytes := [7] }) = some (.verUnpack [7]) := by decide
theorem test_decode_rtPack :
    decoded (.cmd 0b00100000 { bytes := [7], channel := 255, requestResponse := 1 }) = some (.rtPack [7] 255 1) := by decide
theorem test_decode_rtUnpack : decoded (.cmd 0b00100001 { bytes := [7] }) = some (.rtUnpack [7]) := by decide
theorem test_decode_rspPack :
    decoded (.cmd 0b00100010 { bytes := [7], sequence := 9, frameType := 4 }) = some (.rspPack 9 4 [7]) := by decide
theorem test_decode_rspUnpack : decoded (.cmd 0b00100011 { bytes := [7] }) = some (.rspUnpack [7]) := by decide
theorem test_decode_sendNoack :
    decoded (.cmd 0b01000000 { bytes := [7], channel := 3, requestResponse := 1 }) = some (.sendNoack [7] 3 1) := by decide
theorem test_decode_sendAck :
    decoded (.cmd 0b01000001 { bytes := [7], timeout := some 25, channel := 3, requestResponse := 1 }) =
      some (.sendAck [7] (some 25) 3 1) := by decide
theorem test_decode_txPlain :
    decoded (.cmd 0b01001000 { bytes := [7], channel := 3, requestResponse := 1 }) = some (.txPlain 3 1 [7]) := by decide
theorem test_decode_cfgWr : decoded (.cmd 0b01100000 { value := 0x0B }) = some (.cfgWr 0x0B) := by decide
theorem test_decode_regRd : decoded (.cmd 0b01100001 { number := 4 }) = some (.regRd 4) := by decide
theorem test_decode_regWr : decoded (.cmd 0b01100010 { number := 4, value := 250 }) = some (.regWr 4 250) := by decide
theorem test_decode_reset : decoded (.cmd 0b01101111 {}) = some .reset := by decide
theorem test_decode_rxChunk : decoded (.op 0b10000000 { bytes := [7] }) = some (.rxChunk [7]) := by decide
theorem test_decode_rxClosed : decoded (.op 0b10000001 {}) = some .rxClosed := by decide
theorem test_decode_frmUnpack : decoded (.op 0b10000010 { bytes := [7] }) = some (.frmUnpack [7]) := by decide
theorem test_decode_rxDataAck :
    decoded (.op 0b10000100 { bytes := [7], sequence := 9, header := some 0b01001110 }) =
      some (.rxDataAck 9 (some ⟨1, 3, 1, 0⟩) [7]) := by decide
theorem test_decode_rxDataNoack :
    decoded (.op 0b10000101 { bytes := [7], sequence := 9 }) = some (.rxDataNoack 9 none [7]) := by decide
theorem test_decode_rxRespAck :
    decoded (.op 0b10000110 { bytes := [7], sequence := 9 }) = some (.rxRespAck 9 none [7]) := by decide
theorem test_decode_rxRespNack :
    decoded (.op 0b10000111 { bytes := [7], sequence := 9 }) = some (.rxRespNack 9 none [7]) := by decide
theorem test_decode_seqNext : decoded (.op 0b10010000 {}) = some .seqNext := by decide
theorem test_decode_seqNoack : decoded (.op 0b10010001 {}) = some .seqNoack := by decide
theorem test_decode_pendStore :
    decoded (.op 0b10010010 { bytes := [7], sequence := 9, response := .nack }) = some (.pendStore 9 .nack [7]) := by decide
theorem test_decode_pendTake : decoded (.op 0b10010011 { sequence := 9 }) = some (.pendTake 9) := by decide
theorem test_decode_pendPurge : decoded (.op 0b10010100 { sequence := 9 }) = some (.pendPurge 9) := by decide
theorem test_decode_tick : decoded (.op 0b10100000 {}) = some .tick := by decide
theorem test_decode_waitPoll : decoded (.op 0b10100001 { sequence := 9 }) = some (.waitPoll 9) := by decide
theorem test_decode_rtHdr : decoded (.rt 0b10_1101_0_1 [7]) = some (.rtHdr ⟨2, 13, 0, 1⟩ [7]) := by decide
theorem test_decode_rspHdrDataAck :
    decoded (.rsp none 0b10000001 0b0000_0101 [7]) = some (.rspHdrDataAck none 0x81 5 [7]) := by decide
theorem test_decode_rspHdrDataNoack :
    decoded (.rsp (some 0b00_0011_1_0) 0b10000001 0b0001_0000 [7]) =
      some (.rspHdrDataNoack (some ⟨0, 3, 1, 0⟩) 0x81 0 [7]) := by decide
theorem test_decode_rspHdrRespAck :
    decoded (.rsp none 0b10000001 0b0010_1111 [7]) = some (.rspHdrRespAck none 0x81 15 [7]) := by decide
theorem test_decode_rspHdrRespNack :
    decoded (.rsp none 0b10000001 0b0011_0000 [7]) = some (.rspHdrRespNack none 0x81 0 [7]) := by decide
theorem test_decode_rspHdrReserved :
    decoded (.rsp none 0b10000001 0b0100_0010 [7]) = some (.rspHdrReserved none 0x81 4 2 [7]) := by decide
/-- R87: an operation identifier is no command code. -/
theorem test_decode_identifier_is_no_command : decoded (.cmd 0b10000000 {}) = none := by decide

/-! ### Framing (95_test_vectors.md, section 2) -/

theorem test_cobsEnc_zero_inside :
    outs (exec (.cobsEnc [0x11, 0x22, 0x00, 0x33]) s0) = some [.result .ok (.bytes [3, 0x11, 0x22, 2, 0x33])] := by
  decide +kernel
theorem test_cobsEnc_zero_after_full_block :
    cobsEncode (upTo 254 ++ [0]) = 0xFF :: (upTo 254 ++ [1, 1]) ∧ cobsEncode (upTo 254) = 0xFF :: upTo 254 := by
  decide +kernel
theorem test_cobsDec_second_block_truncated :
    outs (exec (.cobsDec [3, 0x11, 0x22, 5, 0x33]) s0) = refusedWith (.framing .truncatedBlock) := by decide +kernel
theorem test_cobsDec_closing_one_after_full_block :
    outs (exec (.cobsDec (0xFF :: (upTo 254 ++ [1]))) s0) = some [.result .ok (.bytes (upTo 254))] := by decide +kernel
theorem test_frmPack_hello :
    outs (exec (.frmPack hello) s0) = some [.result .ok (.bytes (6 :: hello ++ [0]))] := by decide +kernel
theorem test_frmUnpack_carry_and_empty_segment :
    exec (.frmUnpack [0, 0, 5, 0x11, 0x22]) { s0 with carry := [1, 1] } = .next { s0 with
      carry := [5, 0x11, 0x22], out := [.returned (.candidates [.ok [0], .err .emptySegment []])] } := by rfl

/-! ### Verification (section 3) -/

theorem test_crcGen_check_value :
    outs (exec (.crcGen [0x31, 0x32, 0x33, 0x34, 0x35, 0x36, 0x37, 0x38, 0x39]) s0) = some [.result .ok (.crc 0xAEE7)] := by
  decide +kernel
theorem test_verPack_hello :
    outs (exec (.verPack hello) s0) = some [.result .ok (.bytes (hello ++ [0x1C, 0xC5]))] := by decide +kernel
theorem test_verUnpack_bad_last_bit :
    outs (exec (.verUnpack (hello ++ [0x1C, 0xC4])) s0) = refusedWith (.checksum .residue) := by decide +kernel
theorem test_verUnpack_appended_zero_passes :
    outs (exec (.verUnpack (hello ++ [0x1C, 0xC5, 0x00])) s0) = some [.result .ok (.bytes (hello ++ [0x1C]))] := by
  decide +kernel

/-! ### Headers (section 4) -/

theorem test_rtPack_flag : outs (exec (.rtPack [0xAA] 1 1) s0) = some [.result .ok (.bytes [0x06, 0xAA])] := by decide +kernel
theorem test_rtPack_channel_not_masked : outs (exec (.rtPack [] 255 0) s0) = refusedWith (.contract .channelRange) := by
  decide +kernel
/-- R238: `channel_range` for any channel above 15, 300 as well. -/
theorem test_rtPack_channel_as_presented :
    outs (step (asking s0 [commandInput 0x20 { channel := 300 }])) = refusedWith (.contract .channelRange) := by
  decide +kernel
theorem test_rtUnpack_reserved_returned :
    outs (exec (.rtUnpack [0x3F]) s0) = some [.result .ok (.routing 0 15 1 1 [])] := by decide +kernel
theorem test_rtUnpack_version : outs (exec (.rtUnpack [0x84]) s0) = refusedWith (.protocolVersion 2) := by decide +kernel
theorem test_rspPack_last : outs (exec (.rspPack 255 3 []) s0) = some [.result .ok (.bytes [0xFF, 0x30])] := by
  decide +kernel
theorem test_rspPack_reserved_type : outs (exec (.rspPack 1 4 []) s0) = refusedWith (.contract .frameTypeRange) := by
  decide +kernel
theorem test_rspUnpack_reserved_returned :
    outs (exec (.rspUnpack [0x01, 0x2F]) s0) = some [.result .ok (.reliability 1 2 15 [])] := by decide +kernel
theorem test_rspUnpack_bad_type : outs (exec (.rspUnpack [0x01, 0xFF]) s0) = refusedWith (.malformed .badFrameType) := by
  decide +kernel

/-! ### The tracker (section 6) -/

theorem test_seqNext_wraps : after State.seq (exec .seqNext { s0 with seq := 255 }) = some 0 := by decide +kernel
theorem test_seqNoack_keeps_seq :
    exec .seqNoack { s0 with seq := 0x41 } = .next { s0 with seq := 0x41, out := [.returned (.sequence 0)] } := by rfl
theorem test_pendStore_overwrites :
    after (pendGet · 7) (exec (.pendStore 7 .nack []) (pendSet 7 (some ⟨.ack, [0x6F, 0x6B]⟩) s0)) = some (some ⟨.nack, []⟩) := by
  decide +kernel
/-- R161: the longest payload of a block with `MAX_PAYLOAD` = 2 is stored as it is; of a longer one no more than that. -/
theorem test_pendStore_longest :
    after (pendGet · 7) (exec (.pendStore 7 .ack [1, 2]) tight) = some (some ⟨.ack, [1, 2]⟩) := by decide +kernel
theorem test_pendStore_never_longer (d : Bytes) : (storedData tight.params 7 d).length ≤ 2 :=
  storedData_withinMax tight 7 d 2 rfl
theorem test_pendTake_takes :
    after (fun t => (pendGet t 7, t.out)) (exec (.pendTake 7) (pendSet 7 (some ⟨.nack, []⟩) s0)) =
      some (none, [.returned (.entry (some ⟨.nack, []⟩))]) := by decide +kernel
theorem test_pendPurge_purges :
    after (fun t => (pendGet t 1, t.out)) (exec (.pendPurge 1) (pendSet 1 (some ⟨.ack, [0x50]⟩) s0)) = some (none, []) := by
  decide +kernel

/-! ### The reliability engine (section 7) -/

theorem test_sendNoack_below :
    outs (exec (.sendNoack hello 0 0) below) =
      some [.link [1, 9, 0x10, 0x68, 0x65, 0x6C, 0x6C, 0x6F, 0x60, 0xD7, 0], .result .ok (.sent 1 [])] := by decide +kernel
theorem test_sendNoack_above :
    outs (exec (.sendNoack hello 0 0) above) =
      some [.link [1, 1, 9, 0x10, 0x68, 0x65, 0x6C, 0x6C, 0x6F, 0xBA, 0x07, 0], .result .ok (.sent 1 [])] := by decide +kernel
theorem test_sendAck_default :
    after (fun t => (t.seq, waitGet t 1, t.out)) (exec (.sendAck ping none 0 0) below) =
      some (1, .busy 0 5000, [.link [2, 1, 7, 0x70, 0x69, 0x6E, 0x67, 0x5A, 0xAF, 0], .result .ok (.sequence 1)]) := by
  decide +kernel
/-- R238: `timeout_range` for any timeout above 2^31 - 1, 2^32 as well. -/
theorem test_sendAck_timeout_as_presented :
    outs (step (asking below [commandInput 0x41 { timeout := some (2 ^ 32) }])) = refusedWith (.contract .timeoutRange) := by
  decide +kernel
theorem test_sendAck_stale_entry_purged :
    after (fun t => (pendGet t 1, waitGet t 1, t.out)) (exec (.sendAck [0x70] (some 25) 0 0)
        (pendSet 1 (some ⟨.ack, [0x50]⟩) below)) =
      some (none, .busy 0 25, [.link [2, 1, 4, 0x70, 0x8F, 0x37, 0], .result .ok (.sequence 1)]) := by decide +kernel
theorem test_waitPoll_response_before_deadline :
    after (fun t => (waitGet t 1, pendGet t 1, t.out)) (exec (.waitPoll 1)
        (waiting 1 100 30 130 (pendSet 1 (some ⟨.nack, []⟩) s0))) =
      some (.idle, none, [.event (.done 1 .ok false [])]) := by decide +kernel
theorem test_waitPoll_not_yet :
    after (fun t => (waitGet t 1, t.out)) (exec (.waitPoll 1) (waiting 1 100 31 130 s0)) = some (.busy 100 31, []) := by
  decide +kernel
theorem test_rxDataAck_nack :
    outs (exec (.rxDataAck 1 (some ⟨0, 3, 0, 0⟩) ping) { above with answers := [⟨false, [0x62, 0x61, 0x64]⟩] }) =
      some [.handler ⟨1, .dataAck, some ⟨0, 3, 0, 0⟩, ping⟩ ⟨false, [0x62, 0x61, 0x64]⟩,
        .link [9, 0x0C, 1, 0x30, 0x62, 0x61, 0x64, 0xA0, 0x50, 0]] := by decide +kernel
theorem test_rxDataNoack_silent :
    outs (exec (.rxDataNoack 0 none hello) { below with answers := [⟨true, []⟩] }) =
      some [.handler ⟨0, .dataNoack, none, hello⟩ ⟨true, []⟩] := by decide +kernel
theorem test_rxRespAck_stores :
    after (fun t => (pendGet t 1, t.out)) (exec (.rxRespAck 1 none pong) below) = some (some ⟨.ack, pong⟩, []) := by
  decide +kernel
theorem test_rxRespNack_stores :
    after (fun t => (pendGet t 2, t.out)) (exec (.rxRespNack 2 none []) below) = some (some ⟨.nack, []⟩, []) := by
  decide +kernel

/-! ### The pipeline (sections 5, 9) -/

theorem test_txPlain_hello :
    outs (exec (.txPlain 1 0 hello) s0) =
      some [.link [9, 4, 0x68, 0x65, 0x6C, 0x6C, 0x6F, 0xD8, 0x1B, 0], .result .ok (.size 10)] := by decide +kernel
theorem test_txPlain_bare :
    outs (exec (.txPlain 2 1 [0x68, 0x69]) (withCfg false false .off)) =
      some [.link [0x0A, 0x68, 0x69], .result .ok (.size 3)] := by decide +kernel
/-- Program P4, the first chunk: five discards, the rest carried over. -/
theorem test_rxChunk_damaged :
    after (fun t => (t.carry, t.out)) (exec (.rxChunk [9, 4, 0x68, 0x65, 0x6C, 0x6C, 0x6F, 0xD8, 0x1A, 0, 0, 6, 0x44, 0x68,
        0x69, 0xFA, 0x23, 0, 5, 0x11, 0x22, 0, 3, 0xFF, 0xFF, 0, 9, 4, 0x68]) s0) =
      some ([9, 4, 0x68], [.event (.discard (.checksum .residue) [4, 0x68, 0x65, 0x6C, 0x6C, 0x6F, 0xD8, 0x1A]),
        .event (.discard (.framing .emptySegment) []), .event (.discard (.protocolVersion 1) [0x44, 0x68, 0x69, 0xFA, 0x23]),
        .event (.discard (.framing .truncatedBlock) [5, 0x11, 0x22]),
        .event (.discard (.malformed .shortHeader) [0xFF, 0xFF])]) := by decide +kernel
/-- Program P7: an empty packet on a bare link. -/
theorem test_rxChunk_empty_packet :
    outs (exec (.rxChunk []) (withCfg false false .off)) = some [.event (.discard (.malformed .shortHeader) [])] := by
  decide +kernel
/-- R59, R208: two packets with a discard between them, in one chunk. -/
theorem test_rxChunk_stream_order :
    outs (exec (.rxChunk [9, 4, 0x68, 0x65, 0x6C, 0x6C, 0x6F, 0xD8, 0x1B, 0, 0, 9, 4, 0x68, 0x65, 0x6C, 0x6C, 0x6F, 0xD8,
        0x1B, 0]) s0) =
      some [.event (.packet ⟨0, 1, 0, 0⟩ hello), .event (.discard (.framing .emptySegment) []),
        .event (.packet ⟨0, 1, 0, 0⟩ hello)] := by decide +kernel
theorem test_rxClosed_keeps_the_rest :
    exec .rxClosed { s0 with carry := [6] } = .next { s0 with carry := [6], rxClosed := true } := by rfl
theorem test_rtHdr_other_version :
    outs (exec (.rtHdr ⟨1, 1, 0, 0⟩ [0x68, 0x69]) s0) =
      some [.event (.discard (.protocolVersion 1) [0x44, 0x68, 0x69, 0xFA, 0x23])] := by decide +kernel
theorem test_rspHdrDataAck_answers :
    outs (exec (.rspHdrDataAck none 1 0 ping) { below with answers := [⟨true, pong⟩] }) =
      some [.handler ⟨1, .dataAck, none, ping⟩ ⟨true, pong⟩,
        .link [9, 1, 0x20, 0x70, 0x6F, 0x6E, 0x67, 0xD5, 0xD4, 0]] := by decide +kernel
theorem test_rspHdrDataNoack_any_sequence :
    outs (exec (.rspHdrDataNoack none 9 0 []) { below with answers := [⟨true, pong⟩] }) =
      some [.handler ⟨9, .dataNoack, none, []⟩ ⟨true, pong⟩] := by decide +kernel
theorem test_rspHdrRespAck_reserved_ignored :
    after (fun t => (pendGet t 1, t.out)) (exec (.rspHdrRespAck none 1 15 pong) below) = some (some ⟨.ack, pong⟩, []) := by
  decide +kernel
theorem test_rspHdrRespNack_stores :
    after (fun t => (pendGet t 2, t.out)) (exec (.rspHdrRespNack none 2 0 []) below) = some (some ⟨.nack, []⟩, []) := by
  decide +kernel
theorem test_rspHdrReserved_discards :
    outs (exec (.rspHdrReserved none 1 4 0 []) below) =
      some [.event (.discard (.malformed .badFrameType) [0x01, 0x40, 0x87, 0x8D])] := by decide +kernel

/-! ### System operations (section 8) -/

theorem test_nop_ok : exec .nop s0 = .next { s0 with out := [.result .ok .none] } := by rfl
theorem test_cfgWr_upper_bits_ignored : after (regRead · 0) (exec (.cfgWr 0xF3) s0) = some (some 3) := by decide +kernel
theorem test_cfgWr_reserved_mode : outs (exec (.cfgWr 0x0F) s0) = refusedWith (.contract .cfgReserved) := by decide +kernel
theorem test_regRd_timeoutDefault : outs (exec (.regRd 4) s0) = some [.result .ok (.value 5000)] := by decide +kernel
theorem test_regRd_reserved : outs (exec (.regRd 10) s0) = refusedWith (.contract .registerNumber) := by decide +kernel
theorem test_regWr_cfg : after State.cfg (exec (.regWr 0 0x0B) s0) = some ⟨true, true, .above⟩ := by decide +kernel
theorem test_regWr_timeout_range :
    outs (exec (.regWr 4 0x80000000) s0) = refusedWith (.contract .timeoutRange) := by decide +kernel
theorem test_regWr_timeout_as_presented :
    outs (step (asking s0 [commandInput 0x62 { number := 4, value := 2 ^ 32 }])) =
      refusedWith (.contract .timeoutRange) := by decide +kernel
/-- R7: unbounded is the default. -/
theorem test_reset_unbounded : State.reset.params.carryCap = none ∧ State.reset.params.maxPayload = none := ⟨rfl, rfl⟩
theorem test_reset_drops_silently :
    exec .reset (waiting 1 0 100 4 { below with seq := 1, carry := [6, 0x68] }) =
      .next { s0 with out := [.result .ok .none] } := by rfl
theorem test_tick_wraps_now : after State.now (exec .tick { s0 with now := 0xFFFFFFFF }) = some 0 := by decide +kernel
theorem test_tick_timeout_across_the_wrap :
    after (fun t => (waitGet t 5, t.out)) (exec .tick (waiting 5 0xFFFFFFFB 20 0x0E s0)) =
      some (.idle, [.event (.done 5 (.error .timeout) false [0x54, 0x69, 0x6D, 0x65, 0x6F, 0x75, 0x74])]) := by decide +kernel

/-! ### The interface -/

theorem test_fetch_runs_the_row : outs (step (State.reset.withFetchWord 8 0x60)) = some [.result .ok .none] := by
  decide +kernel
theorem test_table_word_command : decodeTableWord 8 0x60 = some (.cfgWr 0) := by decide +kernel
theorem test_table_word_header : decodeTableWord 16 0x4105 = some (.rspHdrDataAck none 0x41 5 []) := by decide +kernel

/-! ### Codes and names (R91, R231) -/

theorem test_error_codes :
    Status.ok.code = 0 ∧ (Err.framing .zeroInSegment).code = 1 ∧ (Err.checksum .short).code = 2 ∧
    (Err.protocolVersion 2).code = 3 ∧ Err.timeout.code = 4 ∧ Err.transport.code = 5 ∧
    (Err.malformed .shortHeader).code = 6 ∧ (Err.contract .mode).code = 7 ∧ (Err.busy 9).code = 8 ∧
    (Err.framing .truncatedBlock).reason = some 3 ∧ (Err.checksum .residue).reason = some 2 ∧
    (Err.protocolVersion 2).reason = some 2 ∧ (Err.malformed .badFrameType).reason = some 2 ∧
    (Err.contract .fieldRange).reason = some 9 ∧ (Err.contract .cfgReserved).reason = some 6 ∧
    (Err.busy 9).reason = some 9 ∧ Err.timeout.reason = none := by decide

/-- R91: the alias `transmit` sends the flag 0. -/
theorem test_transmit_alias : transmit 1 hello = .txPlain 1 0 hello := rfl

/-! ### Witnesses: states and operands that meet the hypotheses of the obligations -/

theorem withinMax_s0 (b : Bytes) : s0.WithinMax b := fun _ h => nomatch h
theorem withinMax_below (b : Bytes) : below.WithinMax b := fun _ h => nomatch h
theorem withinMax_above (b : Bytes) : above.WithinMax b := fun _ h => nomatch h

/-- The longest operand of a finite block. -/
theorem withinMax_tight (b : Bytes) (h : b.length ≤ 2) : tight.WithinMax b := fun _ e => by cases e; exact h

theorem withinCap_tight (b : Bytes) (h : b.length ≤ 2) : tight.WithinCap b := fun _ e => by cases e; exact h

theorem witness_DecodeOfEncode : Instr.wf (.rspHdrReserved (some ⟨3, 15, 1, 1⟩) 255 4 15 [0]) = true := by decide

theorem witness_StepRunsTheDecodedOperation :
    (asking s0 [chunkInput [0], tickInput]).inbox = .transaction (.op 0x80 { bytes := [0] }) :: [tickInput] ∧
    decode (.op 0x80 { bytes := [0] }) = .ok (.rxChunk [0]) ∧ s0.inbox = [] := ⟨rfl, rfl, rfl⟩

theorem witness_IllegalCommandCodeRefused :
    (∀ code ∈ [(0x04 : Byte), 0x7F, 0x80, 0xFF], code.toNat ∉ [0x00, 0x01, 0x02, 0x03, 0x10, 0x11, 0x12, 0x20, 0x21, 0x22,
      0x23, 0x40, 0x41, 0x48, 0x60, 0x61, 0x62, 0x6F]) ∧
    (asking s0 [commandInput 0x80 {}]).inbox = commandInput 0x80 {} :: [] := ⟨by decide, rfl⟩

theorem witness_FieldOutsideItsTypeRefused_fields :
    2 ≤ ({ requestResponse := 2 } : Args).requestResponse ∧ 256 ≤ ({ sequence := 256 } : Args).sequence ∧
    256 ≤ ({ frameType := 256 } : Args).frameType ∧ 256 ≤ ({ value := 256 } : Args).value ∧
    256 ≤ ({ number := 256 } : Args).number ∧ ({ value := 2 ^ 32 } : Args).number ≠ 4 ∧
    2 ^ 32 ≤ ({ value := 2 ^ 32 } : Args).value ∧
    (asking s0 [commandInput 0x62 { value := 2 ^ 32 }]).inbox = [commandInput 0x62 { value := 2 ^ 32 }] :=
  ⟨by decide, by decide, by decide, by decide, by decide, by decide, by decide, rfl⟩

/-- Channel 16 where the channel is used; 256 in `BELOW` mode; and the first timeout above the range in both modes. -/
theorem witness_FieldOutsideItsTypeRefused_ranges :
    tight.WithinMax ({ channel := 16 } : Args).bytes ∧ ({ channel := 16 } : Args).requestResponse < 2 ∧
    15 < ({ channel := 16 } : Args).channel ∧ tight.cfg.relMode = .off ∧ above.cfg.relMode = .above ∧
    256 ≤ ({ channel := 256 } : Args).channel ∧ below.cfg.relMode = .below ∧
    ({ timeout := some (2 ^ 31), channel := 255 } : Args).channel < 256 ∧
    ({ timeout := some (2 ^ 31), channel := 15 } : Args).channel ≤ 15 ∧
    ({ timeout := some (2 ^ 31), channel := 15 } : Args).timeout = some (2 ^ 31) ∧ 2 ^ 31 - 1 < 2 ^ 31 ∧
    ({ number := 4, value := 2 ^ 31 } : Args).number = 4 ∧ 2 ^ 31 - 1 < ({ number := 4, value := 2 ^ 31 } : Args).value :=
  ⟨withinMax_tight _ (by decide), by decide, by decide, rfl, rfl, by decide, rfl, by decide, by decide, rfl, by decide, rfl,
    by decide⟩

theorem witness_FieldOutsideItsTypeRefused_payload :
    tight.params.maxPayload = some 2 ∧ 2 < ([1, 2, 3] : Bytes).length := ⟨rfl, by decide⟩

theorem witness_CommandReturnsOneResult :
    (asking below [commandInput 0x41 { bytes := ping }]).inbox = commandInput 0x41 { bytes := ping } :: [] ∧
    (asking s0 [commandInput 0x60 { value := 0x0C }]).inbox = commandInput 0x60 { value := 0x0C } :: [] := ⟨rfl, rfl⟩

theorem witness_OutputsAreOnlyAdded : outs (step (asking s0 [chunkInput [0]])) =
    some [.event (.discard (.framing .emptySegment) [])] := by decide +kernel

theorem witness_CobsEncodeAndPackResults : tight.WithinMax [0, 1] := withinMax_tight _ (by decide)

theorem witness_CobsEncodedLength :
    (upTo 253).length < 254 ∧ (0x00 : Byte) ∉ upTo 253 ∧
    (∀ r : Bytes, r <:+: [1, 0] → r.length = 254 → (0x00 : Byte) ∈ r) := by
  refine ⟨by decide +kernel, by decide +kernel, fun r hr hl => ?_⟩
  have := hr.length_le
  simp [hl] at this

theorem witness_CobsDecodeOutcomes_zero : tight.WithinMax [0, 2] ∧ (0x00 : Byte) ∈ ([0, 2] : Bytes) :=
  ⟨withinMax_tight _ (by decide), by decide⟩

theorem witness_CobsDecodeOutcomes_blocks :
    (0x00 : Byte) ∉ ([1, 1] : Bytes) ∧ (∀ b ∈ [((1 : Byte), ([] : Bytes)), (1, [])], CobsBlock.good b) ∧
    ([1, 1] : Bytes) = blockBytes [(1, []), (1, [])] := by
  refine ⟨by decide, ?_, by decide⟩
  intro b hb
  simp only [List.mem_cons, List.not_mem_nil, or_false, or_self] at hb
  subst hb
  exact ⟨by decide, by decide⟩

/-- A code byte that announces more than there is. -/
theorem no_blocks_of_two : ¬∃ l : List CobsBlock, (∀ b ∈ l, b.good) ∧ ([2] : Bytes) = blockBytes l := by
  rintro ⟨l, hg, he⟩
  cases l with
  | nil => cases he
  | cons b l =>
    have h := (hg b (by simp)).1
    simp only [blockBytes, List.flatMap_cons, List.cons_append, List.cons.injEq] at he
    have hd : b.2 = [] := (List.append_eq_nil_iff.1 he.2.symm).1
    rw [hd, ← he.1] at h
    revert h; decide

theorem witness_CobsDecodeOutcomes_truncated :
    s0.WithinMax [2] ∧ (0x00 : Byte) ∉ ([2] : Bytes) ∧ ([2] : Bytes) ≠ [] ∧
    ¬∃ l : List CobsBlock, (∀ b ∈ l, b.good) ∧ ([2] : Bytes) = blockBytes l :=
  ⟨withinMax_s0 _, by decide, by decide, no_blocks_of_two⟩

theorem witness_CobsRoundTrip :
    cobsDecode [1, 2, 7] = .ok [0, 7] ∧
    ¬∃ (l : List CobsBlock) (d : Bytes), (∀ b ∈ l, b.good) ∧ CobsBlock.good (0xFF, d) ∧
      ([1, 2, 7] : Bytes) = blockBytes l ++ (0xFF :: d) ++ [0x01] := by
  refine ⟨by rfl, ?_⟩
  rintro ⟨l, d, _, hd, he⟩
  have hl := congrArg List.length he
  have := hd.1
  simp at hl this
  omega

theorem witness_FrameUnpackResult :
    tight.rxClosed = false ∧ tight.cfg.framingEn = true ∧ tight.WithinCap (afterLastZero (tight.carry ++ [1, 0, 5, 6])) :=
  ⟨rfl, rfl, withinCap_tight _ (by decide)⟩

theorem witness_ReassemblyIgnoresChunking :
    (0x00 : Byte) ∉ ([2] : Bytes) ∧ ([[7, 0], [1]] : List Bytes).flatten = ([[7], [], [0, 1]] : List Bytes).flatten ∧
    ([[1], [0, 1, 1], [0]] : List Bytes).flatten = ([[], [0]] : List Bytes).flatMap framePack :=
  ⟨by decide, by decide, by decide⟩

theorem witness_CrcGenResult : tight.WithinMax [0xFF, 0xFF] := withinMax_tight _ (by decide)

theorem witness_VerifyRoundTrip : tight.WithinMax [] ∧ tight.WithinMax (verPack []) :=
  ⟨withinMax_tight _ (by decide), withinMax_tight _ (by decide)⟩

theorem witness_VerUnpackOutcomes : tight.WithinMax [0x41] ∧ tight.WithinMax [0xFF, 0xFF] ∧ tight.WithinMax [0x00, 0x00] :=
  ⟨withinMax_tight _ (by decide), withinMax_tight _ (by decide), withinMax_tight _ (by decide)⟩

theorem witness_SingleBitFlipDetected : 6 < (verPack hello).length ∧ 7 < 8 := by decide

theorem witness_RtPackOutcomes : tight.WithinMax [1, 2] := withinMax_tight _ (by decide)

theorem witness_RtUnpackOutcomes : tight.WithinMax (0x3F :: [1]) ∧ tight.WithinMax (0x84 :: []) :=
  ⟨withinMax_tight _ (by decide), withinMax_tight _ (by decide)⟩

theorem witness_RspPackOutcomes : tight.WithinMax [1, 2] := withinMax_tight _ (by decide)

theorem witness_RspUnpackOutcomes :
    ([7] : Bytes).length < 2 ∧ tight.WithinMax [7] ∧ tight.WithinMax (0x01 :: 0x3F :: []) ∧ tight.WithinMax (0x01 :: 0x40 :: []) :=
  ⟨by decide, withinMax_tight _ (by decide), withinMax_tight _ (by decide), withinMax_tight _ (by decide)⟩

theorem witness_HeaderRoundTrips : (15 : Nat) ≤ 15 ∧ (3 : BitVec 8).toNat ≤ 3 := by decide

theorem witness_SendNoackOutcomes : s0.WithinMax hello ∧ below.WithinMax hello ∧ above.WithinMax hello :=
  ⟨withinMax_s0 _, withinMax_below _, withinMax_above _⟩

theorem witness_SendAckAccepted :
    above.WithinMax ping ∧ above.cfg.relMode ≠ .off ∧ (if above.cfg.relMode = .above then 15 ≤ 15 else 15 ≤ 255) ∧
    (if below.cfg.relMode = .above then 255 ≤ 15 else 255 ≤ 255) ∧
    (some 0x7FFFFFFF : Option Nat).getD above.timeoutDefault.toNat ≤ 2 ^ 31 - 1 ∧
    (some 0 : Option Nat).getD above.timeoutDefault.toNat = 0 ∧
    (none : Option Nat).getD above.timeoutDefault.toNat ≤ 2 ^ 31 - 1 ∧ waitGet above (above.seq + 1) = .idle :=
  ⟨withinMax_above _, by decide, by decide, by decide, by decide, rfl, by decide, by decide +kernel⟩

theorem witness_SendAckRefused :
    s0.cfg.relMode = .off ∧ (if above.cfg.relMode = .above then 15 < 16 else 255 < 16) ∧
    (if below.cfg.relMode = .above then 15 < 256 else 255 < 256) ∧
    2 ^ 31 - 1 < (some 0x80000000 : Option Nat).getD below.timeoutDefault.toNat ∧
    waitGet (waiting 1 0 5000 7 below) ((waiting 1 0 5000 7 below).seq + 1) ≠ .idle ∧
    below.WithinMax [] ∧ (waiting 1 0 5000 7 below).WithinMax [] :=
  ⟨rfl, by decide, by decide, by decide, by decide +kernel, withinMax_below _, withinMax_below _⟩

theorem witness_WaitPollOutcomes :
    waitGet (waiting 1 100 30 130 s0) 1 = .busy 100 30 ∧ pendGet (waiting 1 100 30 130 s0) 1 = none ∧
    (30 : Ticks).toNat ≤ ((waiting 1 100 30 130 s0).now - 100).toNat ∧
    ((waiting 1 100 31 130 s0).now - 100).toNat < (31 : Ticks).toNat ∧
    pendGet (pendSet 1 (some ⟨.ack, pong⟩) (waiting 1 100 30 130 s0)) 1 = some ⟨.ack, pong⟩ := by
  refine ⟨?_, ?_, ?_, ?_, ?_⟩ <;> decide +kernel

theorem witness_DataAckAnswered :
    below.rxClosed = false ∧ (below.cfg.relMode = .below ∧ (none : Option RtHeader) = none) ∧
    (above.cfg.relMode = .above ∧ (some ⟨0, 3, 0, 0⟩ : Option RtHeader) ≠ none) ∧
    ({ below with answers := [⟨true, pong⟩] } : State).answers = ⟨true, pong⟩ :: [] ∧ below.answers = [] :=
  ⟨rfl, ⟨rfl, rfl⟩, ⟨rfl, by decide⟩, rfl, rfl⟩

theorem witness_DataNoackNeverAnswered :
    above.rxClosed = false ∧ (above.cfg.relMode = .above ∧ (some ⟨0, 3, 0, 0⟩ : Option RtHeader) ≠ none) :=
  ⟨rfl, rfl, by decide⟩

/-- At the bound and one byte above it. -/
theorem witness_ResponsesAreStored :
    below.rxClosed = false ∧ (below.cfg.relMode = .below ∧ (none : Option RtHeader) = none) ∧
    tight.WithinMax [1, 2] ∧ ¬tight.WithinMax [1, 2, 3] :=
  ⟨rfl, ⟨rfl, rfl⟩, withinMax_tight _ (by decide), fun h => absurd (h 2 rfl) (by decide)⟩

theorem witness_TxPlainOutcomes :
    s0.WithinMax hello ∧ below.cfg.relMode ≠ .off ∧ below.WithinMax hello ∧ 15 < (16 : Nat) ∧
    ¬15 < (15 : Nat) ∧ s0.cfg.relMode = .off :=
  ⟨withinMax_s0 _, by decide, withinMax_below _, by decide, by decide, rfl⟩

theorem witness_RxChunkCompletes :
    tight.rxClosed = false ∧ tight.cfg.framingEn = true ∧ tight.WithinCap (afterLastZero (tight.carry ++ [0, 5, 6])) ∧
    tight.cfg.relMode = .off ∧ tight.WithinCap (afterLastZero (tight.carry ++ [0, 5, 6] ++ [7, 0, 8])) :=
  ⟨rfl, rfl, withinCap_tight _ (by decide), rfl, withinCap_tight _ (by decide)⟩

theorem witness_RxChunkUnframed :
    (withCfg false true .off).rxClosed = false ∧ (withCfg false false .off).cfg.framingEn = false ∧
    (withCfg false true .below).cfg.framingEn = false ∧ (withCfg false true .below).cfg.relMode ≠ .off :=
  ⟨rfl, rfl, rfl, by decide⟩

theorem witness_StopsByName_closed : ({ s0 with rxClosed := true } : State).rxClosed = true := rfl

theorem witness_StopsByName_overflow :
    tight.rxClosed = false ∧ tight.cfg.framingEn = true ∧ tight.params.carryCap = some 2 ∧
    2 < (afterLastZero (tight.carry ++ [0, 5, 6, 7])).length := ⟨rfl, rfl, rfl, by decide⟩

theorem witness_StopsByName_notStarted :
    s0.cfg.relMode = .off ∧ (below.cfg.relMode = .below ∧ (some ⟨0, 3, 0, 0⟩ : Option RtHeader) ≠ none) ∧
    (above.cfg.relMode = .above ∧ (none : Option RtHeader) = none) ∧ (withCfg false true .off).cfg.framingEn = false ∧
    waitGet s0 255 = .idle := ⟨rfl, ⟨rfl, by decide⟩, ⟨rfl, rfl⟩, rfl, by decide +kernel⟩

theorem witness_ClosedLinkStoresNothing :
    (asking { s0 with rxClosed := true } [tickInput]).inbox = tickInput :: [] ∧ tickInput.fromAgent = true ∧
    after State.rxClosed (step (asking { s0 with rxClosed := true } [tickInput])) = some true ∧
    after State.rxClosed (step (asking { s0 with rxClosed := true } [.resetPin])) = some false := by
  refine ⟨rfl, rfl, ?_, ?_⟩ <;> decide +kernel

theorem witness_FirstFailingCheckDiscards_checksum :
    s0.rxClosed = false ∧ (s0.cfg.framingEn = true → s0.carry = []) ∧ s0.cfg.verifyEn = true ∧
    ([0x41] : Bytes).length < 2 ∧ 2 ≤ ([0, 0] : Bytes).length ∧ crc16 [0, 0] ≠ 0 :=
  ⟨rfl, fun _ => rfl, rfl, by decide, by decide, by decide +kernel⟩

/-- The clauses behind the checksum, each at a body that meets it: the unit is the body with its checksum. -/
theorem witness_FirstFailingCheckDiscards_headers :
    s0.cfg.relMode ≠ .below ∧ below.cfg.relMode = .below ∧ above.cfg.relMode = .above ∧
    ([0xFF, 0xFF] : Bytes) = [] ++ [(crc16 []).extractLsb' 8 8, (crc16 []).extractLsb' 0 8] ∧
    (0x40 : Byte).toNat / 64 ≠ s0.params.protocolVersion.toNat ∧ ([7] : Bytes).length < 2 ∧
    3 < (0x40 : Byte).toNat / 16 ∧ (0x3F : Byte).toNat / 64 = above.params.protocolVersion.toNat := by
  refine ⟨by decide, rfl, rfl, by decide +kernel, by decide, by decide, by decide, by decide⟩

theorem witness_FramingErrorDiscards :
    s0.rxClosed = false ∧ s0.cfg.framingEn = true ∧ s0.carry = [] ∧ (0x00 : Byte) ∉ ([2] : Bytes) ∧ ([2] : Bytes) ≠ [] ∧
    ¬∃ l : List CobsBlock, (∀ b ∈ l, b.good) ∧ ([2] : Bytes) = blockBytes l :=
  ⟨rfl, rfl, rfl, by decide, by decide, no_blocks_of_two⟩

theorem witness_RoutingHeaderRow : s0.rxClosed = false ∧ s0.cfg.relMode = .off := ⟨rfl, rfl⟩

theorem witness_ReliabilityHeaderRows :
    above.rxClosed = false ∧ above.cfg.relMode = .above ∧
    (∃ h : RtHeader, some (⟨0, 3, 1, 1⟩ : RtHeader) = some h ∧ h.version = above.params.protocolVersion) ∧
    below.cfg.relMode = .below ∧ 4 ≤ (4 : BitVec 4).toNat :=
  ⟨rfl, rfl, ⟨_, rfl, rfl⟩, rfl, by decide⟩

theorem witness_HeaderRowsAreReception :
    s0.rxClosed = false ∧ (s0.cfg.framingEn = true → s0.carry = []) ∧
    ([0x04, 7] : Bytes) = packRtHeader ⟨0, 1, 0, 0⟩ :: [7] ∧
    ([1, 0x4F] : Bytes) = ((none : Option RtHeader).map packRtHeader).toList ++ 1 :: packRspByte 4 15 :: [] :=
  ⟨rfl, fun _ => rfl, by decide, by decide⟩

/-- A whole frame of 10 bytes, in two pieces, at a block that carries over 2 bytes. -/
theorem witness_PlainPacketArrives :
    s0.WithinMax hello ∧ (15 : Nat) ≤ 15 ∧ s0.cfg.relMode = .off ∧ s0.cfg = tight.cfg ∧
    s0.params.protocolVersion = tight.params.protocolVersion ∧ tight.rxClosed = false ∧
    (tight.cfg.framingEn = true → tight.carry = []) ∧
    (asking tight [chunkInput [9, 4], chunkInput [0x68, 0x65, 0x6C, 0x6C, 0x6F, 0xD8, 0x1B, 0]]).inbox =
      ([[9, 4], [0x68, 0x65, 0x6C, 0x6C, 0x6F, 0xD8, 0x1B, 0]] : List Bytes).map chunkInput ++ [] ∧
    (∀ k < 2, tight.WithinCap
      (afterLastZero (([[9, 4], [0x68, 0x65, 0x6C, 0x6C, 0x6F, 0xD8, 0x1B, 0]] : List Bytes).take k).flatten)) ∧
    outs (exec (.txPlain 1 0 hello) s0) = some [.link
      ([[9, 4], [0x68, 0x65, 0x6C, 0x6C, 0x6F, 0xD8, 0x1B, 0]] : List Bytes).flatten, .result .ok (.size 10)] := by
  refine ⟨withinMax_s0 _, by decide, rfl, rfl, rfl, rfl, fun _ => rfl, rfl, fun k hk => withinCap_tight _ ?_,
    by decide +kernel⟩
  have : k = 0 ∨ k = 1 := by omega
  rcases this with rfl | rfl <;> decide

theorem witness_PlainPacketArrives_unframed :
    (withCfg false true .off).cfg.framingEn = false ∧
    (asking (withCfg false true .off) [chunkInput [4, 0x80, 0x05]]).inbox = ([[4, 0x80, 0x05]] : List Bytes).map chunkInput ++ [] ∧
    outs (exec (.txPlain 1 0 []) (withCfg false true .off)) =
      some [.link ([4] ++ [(crc16 [4]).extractLsb' 8 8, (crc16 [4]).extractLsb' 0 8]), .result .ok (.size 3)] :=
  ⟨rfl, rfl, by decide +kernel⟩

theorem witness_RegisterReads : s0.carry.length < 2 ^ 32 ∧ 9 < (10 : BitVec 8).toNat := by decide

theorem witness_RegisterWrites :
    (9 : BitVec 8) ≠ 0 ∧ (9 : BitVec 8) ≠ 4 ∧ (10 : BitVec 8) ≠ 0 ∧ (10 : BitVec 8) ≠ 4 ∧ 2 ^ 32 - 1 < 2 ^ 32 ∧
    2 ^ 32 ≤ 2 ^ 32 ∧ (0 : BitVec 8) ≠ 4 := by decide

theorem witness_ResetOutcomes :
    (asking s0 [.resetPin, tickInput]).inbox = .resetPin :: [tickInput] ∧
    exec .reset { asking s0 [.resetPin, tickInput] with inbox := [tickInput] } =
      .next (reply .none (resetBlock (asking s0 [tickInput]))) := ⟨rfl, rfl⟩

/-- One tick before its last poll. -/
theorem witness_StepKeepsGood : (asking (waiting 1 0 25 29 s0) [tickInput]).Good ∧
    after (waitGet · 1) (step (asking (waiting 1 0 25 29 s0) [tickInput])) = some .idle := by
  have hw : ∀ q t0 timeout, waitGet (asking (waiting 1 0 25 29 s0) [tickInput]) q = .busy t0 timeout →
      t0 = 0 ∧ timeout = 25 := by
    have e : ∀ q, waitGet (asking (waiting 1 0 25 29 s0) [tickInput]) q = if q = 1 then .busy 0 25 else .idle := by
      decide +kernel
    intro q t0 timeout h
    rw [e] at h
    split at h
    · cases h; exact ⟨rfl, rfl⟩
    · cases h
  refine ⟨⟨by decide, fun _ e => (nomatch e), by decide, ?_, ?_, fun _ e => (nomatch e)⟩, by decide +kernel⟩
  · intro q t0 timeout h; rw [(hw q t0 timeout h).2]; decide
  · intro q t0 timeout h; rw [(hw q t0 timeout h).1, (hw q t0 timeout h).2]; decide

theorem witness_WritersOfState :
    after (fun t => (t.seq, waitGet t 1)) (exec (.sendAck [] none 0 0) below) = some (1, .busy 0 5000) ∧
    waitGet below 1 = .idle ∧
    after (pendGet · 7) (exec (.pendStore 7 .nack [1]) below) = some (some ⟨.nack, [1]⟩) ∧ pendGet below 7 = none ∧
    after (pendGet · 7) (exec (.pendPurge 7) (pendSet 7 (some ⟨.ack, [1]⟩) below)) = some none ∧
    pendGet (pendSet 7 (some ⟨.ack, [1]⟩) below) 7 ≠ none := by
  refine ⟨?_, ?_, ?_, ?_, ?_, ?_⟩ <;> decide +kernel

/-- A finite `MAX_PAYLOAD`, one entry as long as it allows. -/
theorem witness_WritersOfState_finite :
    tight.params.maxPayload = some 2 ∧ (pendSet 7 (some ⟨.ack, [1, 2]⟩) tight).PendWithin 2 := by
  refine ⟨rfl, fun q e h => ?_⟩
  have e0 : ∀ q, pendGet (pendSet 7 (some ⟨.ack, [1, 2]⟩) tight) q = if q = 7 then some ⟨.ack, [1, 2]⟩ else none := by
    decide +kernel
  rw [e0] at h
  split at h <;> cases h
  decide

/-- A response of one byte, the longest for the bound 1, arrives in a frame. -/
theorem witness_WritersOfState_bound : below.PendWithin 1 ∧ Instr.deliversWithin 1 below (.rxChunk (
    checkedFrame below [7, 0x20, 0x50])) ∧
    after (pendGet · 7) (exec (.rxChunk (checkedFrame below [7, 0x20, 0x50])) below) = some (some ⟨.ack, [0x50]⟩) := by
  refine ⟨?_, ⟨?_, ?_, ?_, ?_⟩, by decide +kernel⟩
  · intro q e h
    have e0 : ∀ q, pendGet below q = none := by decide +kernel
    rw [e0] at h; cases h
  · intro c hc x hx
    obtain rfl := Instr.rxChunk.inj hc
    have hc : candidatesOf below (checkedFrame below [7, 0x20, 0x50]) = [.ok ([7, 0x20, 0x50] ++
        [(crc16 [7, 0x20, 0x50]).extractLsb' 8 8, (crc16 [7, 0x20, 0x50]).extractLsb' 0 8])] := by decide +kernel
    rw [hc] at hx
    simp only [List.mem_cons, Candidate.ok.injEq, List.not_mem_nil, or_false] at hx
    rw [hx]; decide
  · intro body h; cases h
  · intro q ft d h; cases h
  · intro q h d h; rcases h with h | h <;> cases h

theorem witness_BusyWaiterCompletesOnce :
    waitGet (waiting 1 0 25 29 s0) 1 = .busy 0 25 ∧ after (waitGet · 1) (exec .tick (waiting 1 0 25 29 s0)) = some .idle ∧
    after (waitGet · 1) (exec .nop (waiting 1 0 25 29 s0)) = some (.busy 0 25) ∧
    after (waitGet · 1) (exec .reset (waiting 1 0 25 29 s0)) = some .idle := by
  refine ⟨?_, ?_, ?_, ?_⟩ <;> decide +kernel

theorem witness_WaiterTimesOutOnSchedule :
    waitGet (asking (waiting 1 0 25 28 s0) [tickInput, tickInput]) 1 = .busy 0 25 ∧
    pendGet (asking (waiting 1 0 25 28 s0) [tickInput, tickInput]) 1 = none ∧ (25 : Ticks).toNat ≤ 2 ^ 31 - 1 ∧
    [tickInput, tickInput] = List.replicate 1 tickInput ++ [tickInput] ∧
    [tickInput, tickInput] = List.replicate 2 tickInput ++ [] ∧ (28 - 0 : Ticks).toNat < lastPoll 25 ∧
    1 + (28 - 0 : Ticks).toNat < lastPoll 25 ∧ 2 + (28 - 0 : Ticks).toNat = lastPoll 25 :=
  ⟨by decide +kernel, by decide +kernel, by decide, rfl, rfl, by decide, by decide, by decide⟩

theorem witness_ResponseDeliveredAtNextPoll :
    waitGet (pendSet 1 (some ⟨.ack, pong⟩) (waiting 1 0 5000 8 s0)) 1 = .busy 0 5000 ∧
    pendGet (pendSet 1 (some ⟨.ack, pong⟩) (waiting 1 0 5000 8 s0)) 1 = some ⟨.ack, pong⟩ ∧
    (8 - 0 : Ticks).toNat + 2 < 2 ^ 32 ∧ 1 < 10 - (8 - 0 : Ticks).toNat % 10 ∧ 2 = 10 - (8 - 0 : Ticks).toNat % 10 ∧
    (asking s0 [tickInput, tickInput]).inbox = List.replicate 2 tickInput ++ [] :=
  ⟨by decide +kernel, by decide +kernel, by decide, by decide, by decide, rfl⟩

/-- The shortest wait of R285: no tick passes before the one that delivers. -/
theorem witness_ResponseDeliveredAtNextPoll_shortest :
    waitGet (pendSet 1 (some ⟨.ack, pong⟩) (waiting 1 0 5000 9 s0)) 1 = .busy 0 5000 ∧
    pendGet (pendSet 1 (some ⟨.ack, pong⟩) (waiting 1 0 5000 9 s0)) 1 = some ⟨.ack, pong⟩ ∧
    (9 - 0 : Ticks).toNat + 10 < 2 ^ 32 ∧ 0 + (9 - 0 : Ticks).toNat % 10 = 9 ∧
    outs (exec .tick (pendSet 1 (some ⟨.ack, pong⟩) (waiting 1 0 5000 9 s0))) = some [.event (.done 1 .ok true pong)] :=
  ⟨by decide +kernel, by decide +kernel, by decide, by decide, by decide +kernel⟩

/-- The longest: stored when the elapsed time is a multiple of `POLL` already, nine ticks pass and the tenth delivers. -/
theorem witness_ResponseDeliveredAtNextPoll_boundary :
    waitGet (pendSet 1 (some ⟨.nack, []⟩) (waiting 1 0 5000 20 s0)) 1 = .busy 0 5000 ∧
    pendGet (pendSet 1 (some ⟨.nack, []⟩) (waiting 1 0 5000 20 s0)) 1 = some ⟨.nack, []⟩ ∧
    (20 - 0 : Ticks).toNat + 10 < 2 ^ 32 ∧ 9 + (20 - 0 : Ticks).toNat % 10 = 9 ∧ 9 < 10 - (20 - 0 : Ticks).toNat % 10 ∧ 10 = 10 - (20 - 0 : Ticks).toNat % 10 ∧
    (asking s0 (List.replicate 10 tickInput)).inbox = List.replicate 10 tickInput ++ [] :=
  ⟨by decide +kernel, by decide +kernel, by decide, by decide, by decide, by decide, rfl⟩

theorem witness_RequestIsAnswered :
    above.WithinMax ping ∧ above.cfg.relMode ≠ .off ∧ (if above.cfg.relMode = .above then 15 ≤ 15 else 15 ≤ 255) ∧
    0 < (some 1 : Option Nat).getD above.timeoutDefault.toNat ∧
    (some 1 : Option Nat).getD above.timeoutDefault.toNat ≤ 2 ^ 31 - 1 ∧ waitGet above (above.seq + 1) = .idle ∧
    above.rxClosed = false ∧ above.carry = [] ∧
    ({ above with answers := [⟨false, []⟩] } : State).answers = ⟨false, []⟩ :: [] ∧
    above.cfg = ({ above with answers := [⟨false, []⟩] } : State).cfg :=
  ⟨withinMax_above _, by decide, by decide, by decide, by decide, by decide +kernel, rfl, rfl, rfl, rfl⟩

end Sys2Proof.Tests
end

-- ==== Proofs: the state after reset ====
section
/-! The state after reset (R7, R40): its two tables are empty, so it meets the invariant of the block. -/

namespace Sys2Proof.Machine

/-! ### The tables at reset -/

@[simp] theorem pendGet_resetWith (p : Params) (q : SeqNo) : pendGet (State.resetWith p) q = none := by
  simp [pendGet, State.resetWith]

@[simp] theorem waitGet_resetWith (p : Params) (q : SeqNo) : waitGet (State.resetWith p) q = .idle := by
  simp [waitGet, State.resetWith]

/-! ### The invariant at reset -/

/-- A block that holds nothing is good whatever its parameters: only the default timeout of R32 is left to check. -/
theorem State.good_of_empty {s : State} (hcarry : s.carry = []) (htimeout : s.timeoutDefault.toNat ≤ 2 ^ 31 - 1)
    (hwait : ∀ q, waitGet s q = .idle) (hpend : ∀ q, pendGet s q = none) : s.Good where
  carryHasNoZero := by simp [hcarry]
  carryWithinCap := by simp [hcarry]
  defaultTimeoutLegal := htimeout
  waiterTimeoutLegal := by simp [hwait]
  waiterInTime := by simp [hwait]
  pendWithinMax := by simp [State.PendWithin, hpend]

theorem State.resetWith_good (p : Params) : (State.resetWith p).Good :=
  State.good_of_empty rfl (by decide : (5000 : Ticks).toNat ≤ 2 ^ 31 - 1) (waitGet_resetWith p) (pendGet_resetWith p)

/-! ### The capacities at reset -/

theorem State.withinMax_of_unbounded {s : State} (h : s.params.maxPayload = none) (b : Bytes) : s.WithinMax b := by
  simp [State.WithinMax, h]

theorem State.withinCap_of_unbounded {s : State} (h : s.params.carryCap = none) (b : Bytes) : s.WithinCap b := by
  simp [State.WithinCap, h]

/-- Settles O55: the reset state holds nothing, and by R7's defaults neither capacity is bounded. -/
theorem resetIsGood : Obligations.ResetIsGood := by
  have hcap : State.reset.params.carryCap = none := rfl
  have hmax : State.reset.params.maxPayload = none := rfl
  exact ⟨fun p => ⟨State.resetWith_good p, State.resetWith_params p⟩, State.resetWith_good Config.params,
    State.withinMax_of_unbounded hmax, State.withinCap_of_unbounded hcap⟩

end Sys2Proof.Machine
end

-- ==== Proofs: the cut of a stream ====
section
/-! The cut of a byte stream at its terminators (R110, R111): what stays in the carry-over buffer is what follows the
last terminator. -/

namespace Sys2Proof.Machine

/-! ### The bytes after the last terminator -/

theorem zero_notMem_afterLastZero (b : Bytes) : (0x00 : Byte) ∉ afterLastZero b := by
  intro h
  have h' := List.mem_takeWhile_imp (List.mem_reverse.1 h)
  simp at h'

theorem afterLastZero_append_zero (a b : Bytes) : afterLastZero (a ++ 0x00 :: b) = afterLastZero b := by
  simp only [afterLastZero, List.reverse_append, List.reverse_cons, List.append_assoc, List.takeWhile_append]
  split
  · rename_i hlen
    rw [(List.takeWhile_prefix _).eq_of_length hlen]
    simp
  · rfl

theorem afterLastZero_of_notMem {b : Bytes} (h : (0x00 : Byte) ∉ b) : afterLastZero b = b := by
  have hall : ∀ x ∈ b.reverse, (x != 0x00) = true := fun x hx => by
    simpa using fun hz : x = 0x00 => h (hz ▸ List.mem_reverse.1 hx)
  rw [afterLastZero, List.takeWhile_eq_self_iff.2 hall, List.reverse_reverse]

/-! ### The cut -/

theorem cutSegments_rest {segment : Bytes} (h : (0x00 : Byte) ∉ segment) (b : Bytes) :
    (cutSegments segment b).2 = afterLastZero (segment ++ b) := by
  induction b generalizing segment with
  | nil => simp [cutSegments, afterLastZero_of_notMem h]
  | cons x rest ih =>
    by_cases hx : x = delim
    · subst hx
      have hcut : (cutSegments segment (delim :: rest)).2 = (cutSegments [] rest).2 := by simp [cutSegments]
      rw [hcut, ih (by simp)]
      exact (afterLastZero_append_zero segment rest).symm
    · have hseg : (0x00 : Byte) ∉ segment ++ [x] := by
        simpa using ⟨h, fun hz : (0x00 : Byte) = x => hx hz.symm⟩
      simpa [cutSegments, hx] using ih hseg

/-- A stretch without a terminator, then one terminator: one segment, and nothing left over. -/
theorem cutSegments_terminated (segment : Bytes) {b : Bytes} (h : (0x00 : Byte) ∉ b) :
    cutSegments segment (b ++ [delim]) = ([segment ++ b], []) := by
  induction b generalizing segment with
  | nil => simp [cutSegments]
  | cons x rest ih =>
    obtain ⟨hx, hrest⟩ : (0x00 : Byte) ≠ x ∧ (0x00 : Byte) ∉ rest := by simpa using h
    have hx' : x ≠ delim := fun hz => hx hz.symm
    simp [cutSegments, hx', ih _ hrest]

/-- `FRM.UNPACK` leaves in `CARRY` what follows the last terminator of the stream (R34, R110). -/
theorem frameUnpack_carry (carry chunk : Bytes) : (frameUnpack carry chunk).2 = afterLastZero (carry ++ chunk) :=
  cutSegments_rest (by simp) (carry ++ chunk)

end Sys2Proof.Machine
end

-- ==== Proofs: what the receive path leaves unchanged ====
section
/-! What `Received` says field by field (R208 to R210): the receive path writes `PEND`, the handler's answers and the
outputs alone. -/

namespace Sys2Proof.Machine

variable {s t : State}

theorem Received.cfg (h : Received s t) : t.cfg = s.cfg := by obtain ⟨l, ht, -⟩ := h; rw [ht]
theorem Received.rxClosed (h : Received s t) : t.rxClosed = s.rxClosed := by obtain ⟨l, ht, -⟩ := h; rw [ht]
theorem Received.seq (h : Received s t) : t.seq = s.seq := by obtain ⟨l, ht, -⟩ := h; rw [ht]
theorem Received.timeoutDefault (h : Received s t) : t.timeoutDefault = s.timeoutDefault := by
  obtain ⟨l, ht, -⟩ := h; rw [ht]
theorem Received.now (h : Received s t) : t.now = s.now := by obtain ⟨l, ht, -⟩ := h; rw [ht]
theorem Received.carry (h : Received s t) : t.carry = s.carry := by obtain ⟨l, ht, -⟩ := h; rw [ht]
theorem Received.wait (h : Received s t) : t.wait = s.wait := by obtain ⟨l, ht, -⟩ := h; rw [ht]
theorem Received.params (h : Received s t) : t.params = s.params := by obtain ⟨l, ht, -⟩ := h; rw [ht]

theorem Received.waitGet (h : Received s t) (q : SeqNo) : waitGet t q = Machine.waitGet s q :=
  waitGet_congr h.wait q

theorem Received.pendWithin (h : Received s t) {m : Nat} (hm : s.params.maxPayload = some m) (hs : s.PendWithin m) :
    t.PendWithin m := by
  obtain ⟨_, -, -, hpend⟩ := h
  exact hpend m hm hs

end Sys2Proof.Machine
end

-- ==== Proofs: the waiter's poll and the tick ====
section
/-! What a poll and a tick do to one slot and its entry (R175, R176, R226), and the arithmetic of a waiter's last
poll. -/

namespace Sys2Proof.Machine

/-! ### One poll -/

theorem isDone_doneResponse (q r : SeqNo) (e : PendEntry) : (doneResponse q e).isDone r = (q == r) := rfl

theorem isDone_doneTimeout (q r : SeqNo) : (doneTimeout q).isDone r = (q == r) := rfl

/-- A poll completes the slot with one `DONE` event of its number and empties the entry, or does nothing because no
response is there and the deadline has not passed (R175). -/
theorem waitPoll_cases (q : SeqNo) (t0 timeout : Ticks) (s : State) :
    (∃ o : Output, (∀ r, o.isDone r = (q == r)) ∧
      waitPoll q t0 timeout s = (waitSet q .idle (pendSet q none s)).emitting [o]) ∨
    ((s.now - t0).toNat < timeout.toNat ∧ waitPoll q t0 timeout s = s) := by
  cases he : pendGet s q with
  | some e => exact .inl ⟨doneResponse q e, fun r => isDone_doneResponse q r e, waitPoll_response he t0 timeout⟩
  | none =>
    rcases Nat.lt_or_ge (s.now - t0).toNat timeout.toNat with hlt | hge
    · exact .inr ⟨hlt, waitPoll_waiting he hlt⟩
    · exact .inl ⟨doneTimeout q, isDone_doneTimeout q, by rw [pendSet_self he, waitPoll_timeout he hge]⟩

/-! ### One tick -/

theorem tickOnce_frame (s : State) :
    tickOnce s = { s with now := s.now + 1, pend := (tickOnce s).pend, wait := (tickOnce s).wait,
                          out := (tickOnce s).out } :=
  (pollAll_spec allSequences allSequences_nodup { s with now := s.now + 1 }).1

theorem tickOnce_out (s : State) :
    (tickOnce s).out =
      s.out ++ allSequences.filterMap fun q => tickEvent (s.now + 1) q (waitGet s q) (pendGet s q) :=
  (pollAll_spec allSequences allSequences_nodup { s with now := s.now + 1 }).2.1

@[simp] theorem tickOnce_now (s : State) : (tickOnce s).now = s.now + 1 := by rw [tickOnce_frame]
@[simp] theorem tickOnce_cfg (s : State) : (tickOnce s).cfg = s.cfg := by rw [tickOnce_frame]
@[simp] theorem tickOnce_rxClosed (s : State) : (tickOnce s).rxClosed = s.rxClosed := by rw [tickOnce_frame]
@[simp] theorem tickOnce_seq (s : State) : (tickOnce s).seq = s.seq := by rw [tickOnce_frame]
@[simp] theorem tickOnce_carry (s : State) : (tickOnce s).carry = s.carry := by rw [tickOnce_frame]
@[simp] theorem tickOnce_params (s : State) : (tickOnce s).params = s.params := by rw [tickOnce_frame]
@[simp] theorem tickOnce_timeoutDefault (s : State) : (tickOnce s).timeoutDefault = s.timeoutDefault := by
  rw [tickOnce_frame]

/-- A slot for which the tick has an event is completed and its entry emptied; every other one stays as it is. -/
theorem tickOnce_slot (s : State) (q : SeqNo) :
    if (tickEvent (s.now + 1) q (waitGet s q) (pendGet s q)).isSome = true then
      waitGet (tickOnce s) q = .idle ∧ pendGet (tickOnce s) q = none
    else waitGet (tickOnce s) q = waitGet s q ∧ pendGet (tickOnce s) q = pendGet s q := by
  have hslot := (pollAll_spec allSequences allSequences_nodup { s with now := s.now + 1 }).2.2 q
  simp only [mem_allSequences, true_and] at hslot
  exact hslot

theorem tickOnce_of_event {s : State} {q : SeqNo} {o : Output}
    (h : tickEvent (s.now + 1) q (waitGet s q) (pendGet s q) = some o) :
    waitGet (tickOnce s) q = .idle ∧ pendGet (tickOnce s) q = none := by
  have hslot := tickOnce_slot s q
  rw [h] at hslot
  simpa using hslot

theorem tickOnce_of_noEvent {s : State} {q : SeqNo}
    (h : tickEvent (s.now + 1) q (waitGet s q) (pendGet s q) = none) :
    waitGet (tickOnce s) q = waitGet s q ∧ pendGet (tickOnce s) q = pendGet s q := by
  have hslot := tickOnce_slot s q
  rw [h] at hslot
  simpa using hslot

theorem tickEvent_idle (now : Ticks) (q : SeqNo) (e : Option PendEntry) : tickEvent now q .idle e = none := rfl

/-- A tick passes over a busy slot only between two polls or before its deadline. -/
theorem tickEvent_busy_none {now : Ticks} {q : SeqNo} {t0 timeout : Ticks} {e : Option PendEntry}
    (h : tickEvent now q (.busy t0 timeout) e = none) :
    (now - t0).toNat % Config.poll ≠ 0 ∨ (now - t0).toNat < timeout.toNat := by
  by_cases hdue : (now - t0).toNat % Config.poll = 0
  · refine .inr (Nat.lt_of_not_le fun hge => ?_)
    simp only [tickEvent, hdue, ne_eq, not_true_eq_false, if_false, if_pos hge] at h
    cases e <;> cases h
  · exact .inl hdue

theorem tickEvent_isDone {now : Ticks} {q : SeqNo} {w : Waiter} {e : Option PendEntry} {o : Output}
    (h : tickEvent now q w e = some o) (r : SeqNo) : o.isDone r = (q == r) := by
  cases w with
  | idle => simp [tickEvent] at h
  | busy t0 timeout =>
    unfold tickEvent at h
    dsimp only at h
    split at h
    · cases h
    · cases e with
      | some e => cases h; rfl
      | none =>
        dsimp only at h
        split at h <;> cases h
        rfl

/-! ### The last poll -/

/-- `10 * ceil(T / 10)`: the first multiple of 10 that is at least `T` (R176 (b)). -/
theorem lastPoll_bounds (timeout : Ticks) :
    lastPoll timeout % 10 = 0 ∧ timeout.toNat ≤ lastPoll timeout ∧ lastPoll timeout ≤ timeout.toNat + 9 := by
  simp only [lastPoll, Config.poll]
  omega

/-- A tick that does not end a waiter leaves it before its last poll. -/
theorem inTime_of_noEvent {now : Ticks} {q : SeqNo} {t0 timeout : Ticks} {e : Option PendEntry}
    (hlegal : timeout.toNat ≤ 2 ^ 31 - 1) (hin : (now - t0).toNat < lastPoll timeout)
    (h : tickEvent (now + 1) q (.busy t0 timeout) e = none) : (now + 1 - t0).toNat < lastPoll timeout := by
  obtain ⟨hmul, hle, hge⟩ := lastPoll_bounds timeout
  have hnext : (now + 1 - t0).toNat = (now - t0).toNat + 1 := by bv_omega
  have hpoll := tickEvent_busy_none h
  simp only [Config.poll] at hpoll
  omega

end Sys2Proof.Machine
end

-- ==== Proofs: the invariant of the block ====
section
/-! Every step keeps a good state good (R34, R36, R111, R161, R176): first what each kind of write to the state does to
the invariant, then the effects of `exec_cases` one by one. -/

namespace Sys2Proof.Machine

/-! ### What the invariant depends on -/

/-- The invariant reads the buffer, the timeouts, the time and the two tables. -/
theorem State.Good.congr {s t : State} (h : s.Good) (hcarry : t.carry = s.carry) (hparams : t.params = s.params)
    (hdefault : t.timeoutDefault = s.timeoutDefault) (hnow : t.now = s.now) (hwait : t.wait = s.wait)
    (hpend : t.pend = s.pend) : t.Good where
  carryHasNoZero := by rw [hcarry]; exact h.carryHasNoZero
  carryWithinCap := by rw [hcarry, hparams]; exact h.carryWithinCap
  defaultTimeoutLegal := by rw [hdefault]; exact h.defaultTimeoutLegal
  waiterTimeoutLegal q := by rw [waitGet_congr hwait q]; exact h.waiterTimeoutLegal q
  waiterInTime q := by rw [waitGet_congr hwait q, hnow]; exact h.waiterInTime q
  pendWithinMax m := by rw [hparams]; exact fun hm => pendWithin_of_pend (h.pendWithinMax m hm) hpend

theorem State.Good.emitting {s : State} (h : s.Good) (l : List Output) : (s.emitting l).Good :=
  h.congr rfl rfl rfl rfl rfl rfl

/-! ### What a write does to it -/

theorem State.Good.setCarry {s : State} (h : s.Good) {c : Bytes} (hzero : (0x00 : Byte) ∉ c) (hcap : s.WithinCap c) :
    ({ s with carry := c } : State).Good :=
  { h with carryHasNoZero := hzero, carryWithinCap := hcap }

theorem State.Good.setTimeoutDefault {s : State} (h : s.Good) {T : Ticks} (hT : T.toNat ≤ 2 ^ 31 - 1) :
    ({ s with timeoutDefault := T } : State).Good :=
  { h with defaultTimeoutLegal := hT }

/-- A table of responses within `MAX_PAYLOAD` can take the place of another. -/
theorem State.Good.setPend {s t : State} (h : s.Good) (hcarry : t.carry = s.carry) (hparams : t.params = s.params)
    (hdefault : t.timeoutDefault = s.timeoutDefault) (hnow : t.now = s.now) (hwait : t.wait = s.wait)
    (hpend : ∀ m, s.params.maxPayload = some m → t.PendWithin m) : t.Good :=
  { h.congr (t := { t with pend := s.pend }) hcarry hparams hdefault hnow hwait rfl with
    pendWithinMax := fun m hm => hpend m (hparams ▸ hm) }

theorem pendSet_pendWithin {s : State} {m : Nat} (h : s.PendWithin m) (q : SeqNo) {e : Option PendEntry}
    (he : ∀ x, e = some x → x.data.length ≤ m) : (pendSet q e s).PendWithin m := by
  intro r x hx
  rw [pendGet_pendSet] at hx
  split at hx
  · exact he x hx
  · exact h r x hx

theorem State.Good.pendSet {s : State} (h : s.Good) (q : SeqNo) {e : Option PendEntry}
    (he : ∀ x, e = some x → s.WithinMax x.data) : (pendSet q e s).Good :=
  h.setPend rfl rfl rfl rfl rfl fun m hm => pendSet_pendWithin (h.pendWithinMax m hm) q fun x hx => he x hx m hm

theorem State.Good.pendEmptied {s : State} (h : s.Good) (q : SeqNo) : (Machine.pendSet q none s).Good :=
  h.pendSet q (by simp)

theorem State.Good.pendStore {s : State} (h : s.Good) (q : SeqNo) (ft : RespType) (d : Bytes) :
    (pendStore q ft d s).Good :=
  h.pendSet q (by rintro _ ⟨⟩; exact storedData_withinMax s q d)

/-- A slot can take a legal waiter that is still before its last poll. -/
theorem State.Good.waitSet {s : State} (h : s.Good) (q : SeqNo) {w : Waiter}
    (hw : ∀ t0 timeout, w = .busy t0 timeout →
      timeout.toNat ≤ 2 ^ 31 - 1 ∧ (s.now - t0).toNat < lastPoll timeout) : (waitSet q w s).Good where
  carryHasNoZero := h.carryHasNoZero
  carryWithinCap := h.carryWithinCap
  defaultTimeoutLegal := h.defaultTimeoutLegal
  waiterTimeoutLegal r t0 timeout hr := by
    rw [waitGet_waitSet] at hr
    split at hr
    · exact (hw t0 timeout hr).1
    · exact h.waiterTimeoutLegal r t0 timeout hr
  waiterInTime r t0 timeout hr := by
    rw [waitGet_waitSet] at hr
    split at hr
    · exact (hw t0 timeout hr).2
    · exact h.waiterInTime r t0 timeout hr
  pendWithinMax := h.pendWithinMax

theorem State.Good.waitIdle {s : State} (h : s.Good) (q : SeqNo) : (Machine.waitSet q .idle s).Good :=
  h.waitSet q (by simp)

/-! ### What an operation does to it -/

theorem State.Good.received {s t : State} (h : s.Good) (hr : Received s t) : t.Good := by
  exact h.setPend hr.carry hr.params hr.timeoutDefault hr.now hr.wait fun m hm =>
    hr.pendWithin hm (h.pendWithinMax m hm)

/-- The new carry-over segment keeps the invariant where it fits (R111, R112). -/
theorem State.Good.cut {s : State} (h : s.Good) {chunk : Bytes}
    (fits : carryFits s.params (frameUnpack s.carry chunk).2 = true) :
    ({ s with carry := (frameUnpack s.carry chunk).2 } : State).Good :=
  h.setCarry (by rw [frameUnpack_carry]; exact zero_notMem_afterLastZero _) (carryFits_iff_withinCap.1 fits)

theorem State.Good.waitPoll {s : State} (h : s.Good) (q : SeqNo) (t0 timeout : Ticks) :
    (waitPoll q t0 timeout s).Good := by
  rcases waitPoll_cases q t0 timeout s with ⟨o, -, hpoll⟩ | ⟨-, hpoll⟩
  · rw [hpoll]; exact ((h.pendEmptied q).waitIdle q).emitting [o]
  · rw [hpoll]; exact h

/-- A request with a timeout of 0 is ended by its first poll; with a longer one it is before its last. -/
theorem State.Good.request {s : State} (h : s.Good) (route : Route) (data : Bytes) {timeout : Ticks}
    (hlegal : timeout.toNat ≤ 2 ^ 31 - 1) :
    (Machine.waitPoll (s.seq + 1) s.now timeout (requested route data timeout s)).Good := by
  have hpurged : (Machine.pendSet (s.seq + 1) none { s with seq := s.seq + 1 }).Good :=
    (h.congr (t := { s with seq := s.seq + 1 }) rfl rfl rfl rfl rfl rfl).pendEmptied (s.seq + 1)
  rcases waitPoll_cases (s.seq + 1) s.now timeout (requested route data timeout s) with
    ⟨o, -, hpoll⟩ | ⟨hlt, hpoll⟩
  · rw [hpoll]
    exact (hpurged.waitIdle (s.seq + 1)).congr rfl rfl rfl rfl (by simp [requested]) (by simp [requested])
  · rw [hpoll]
    have hbusy := hpurged.waitSet (s.seq + 1) (w := .busy s.now timeout) (by
      rintro _ _ ⟨⟩
      exact ⟨hlegal, Nat.lt_of_lt_of_le hlt (lastPoll_bounds timeout).2.1⟩)
    exact hbusy.congr rfl rfl rfl rfl rfl rfl

theorem State.Good.tick {s : State} (h : s.Good) : (tickOnce s).Good := by
  have hslot : ∀ q t0 timeout, waitGet (tickOnce s) q = .busy t0 timeout →
      waitGet s q = .busy t0 timeout ∧ tickEvent (s.now + 1) q (waitGet s q) (pendGet s q) = none := by
    intro q t0 timeout hq
    cases hev : tickEvent (s.now + 1) q (waitGet s q) (pendGet s q) with
    | some o => rw [(tickOnce_of_event hev).1] at hq; cases hq
    | none => exact ⟨(tickOnce_of_noEvent hev).1 ▸ hq, rfl⟩
  refine ⟨?_, ?_, ?_, fun q t0 timeout hq => ?_, fun q t0 timeout hq => ?_, fun m hm q e he => ?_⟩
  · simpa using h.carryHasNoZero
  · simpa using h.carryWithinCap
  · simpa using h.defaultTimeoutLegal
  · exact h.waiterTimeoutLegal q t0 timeout (hslot q t0 timeout hq).1
  · obtain ⟨hs, hev⟩ := hslot q t0 timeout hq
    rw [hs] at hev
    rw [tickOnce_now]
    exact inTime_of_noEvent (h.waiterTimeoutLegal q t0 timeout hs) (h.waiterInTime q t0 timeout hs) hev
  · rw [tickOnce_params] at hm
    cases hev : tickEvent (s.now + 1) q (waitGet s q) (pendGet s q) with
    | some o => rw [(tickOnce_of_event hev).2] at he; cases he
    | none => exact h.pendWithinMax m hm q e ((tickOnce_of_noEvent hev).2 ▸ he)

theorem State.Good.resetBlock (s : State) : (resetBlock s).Good :=
  (State.resetWith_good s.params).congr rfl rfl rfl rfl rfl rfl

/-- Every operation keeps a good state good. -/
theorem exec_good {i : Instr} {s t : State} (hs : s.Good) (h : exec i s = .next t) : t.Good := by
  cases exec_cases h with
  | outputs _ l _ => exact hs.emitting l
  | config _ c _ => exact hs.congr rfl rfl rfl rfl rfl rfl
  | timeout v hv =>
    refine (hs.setTimeoutDefault ?_).emitting _
    rw [BitVec.toNat_ofNat]
    omega
  | request data timeout channel rr route _ legal =>
    refine (hs.request route data ?_).emitting _
    rw [BitVec.toNat_ofNat]
    omega
  | reset => exact (State.Good.resetBlock s).emitting _
  | chunk chunk _ fits hr _ => exact (hs.cut fits).received hr
  | segments chunk fits _ => exact (hs.cut fits).emitting _
  | received _ _ _ hr _ => exact hs.received hr
  | closed => exact hs.congr rfl rfl rfl rfl rfl rfl
  | sequence => exact hs.congr rfl rfl rfl rfl rfl rfl
  | pending _ q e l hi _ =>
    rcases hi with ⟨ft, d, rfl⟩ | rfl | rfl
    · exact Host.Outcome.next.inj h ▸ hs.pendStore q ft d
    · exact Host.Outcome.next.inj h ▸ (hs.pendEmptied q).emitting [.returned (.entry (pendGet s q))]
    · exact Host.Outcome.next.inj h ▸ hs.pendEmptied q
  | tick => exact hs.tick
  | poll q t0 timeout _ => exact hs.waitPoll q t0 timeout

theorem serve_good {x : Transaction} {s t : State} (hs : s.Good) (h : serve x s = .next t) : t.Good := by
  rcases serve_cases h with ⟨i, -, hi⟩ | ⟨_, _, e, -, -, rfl⟩
  · exact exec_good hs hi
  · exact hs.emitting [.result (.error (commandError e)) .none]

theorem step_good {s t : State} (hs : s.Good) (h : step s = .next t) : t.Good := by
  have hrest : ∀ rest, ({ s with inbox := rest } : State).Good := fun _ => hs.congr rfl rfl rfl rfl rfl rfl
  match hin : s.inbox with
  | [] => rw [step_idle hin] at h; cases h; exact hs
  | .resetPin :: rest => rw [step_resetPin hin] at h; cases h; exact .resetBlock _
  | .transaction x :: rest => rw [step_serve hin] at h; exact serve_good (hrest rest) h

/-! ### The bytes `PEND` holds -/

theorem mem_pend {s : State} {e : Option PendEntry} (h : e ∈ s.pend.toList) : ∃ q, pendGet s q = e := by
  obtain ⟨n, hn, rfl⟩ := List.getElem_of_mem h
  refine ⟨BitVec.ofNat 8 n, ?_⟩
  have hlt : n < 256 := by simpa using hn
  simp [pendGet, Nat.mod_eq_of_lt hlt]

theorem pendBytes_le {s : State} {m : Nat} (h : s.PendWithin m) : s.pendBytes ≤ 256 * m := by
  have hle : ∀ x ∈ s.pend.toList.map (fun e => match e with | none => 0 | some e => e.data.length), x ≤ m := by
    intro x hx
    obtain ⟨e, he, rfl⟩ := List.mem_map.1 hx
    obtain ⟨q, hq⟩ := mem_pend he
    cases e with
    | none => exact Nat.zero_le m
    | some e => exact h q e hq
  calc s.pendBytes ≤ _ := List.sum_le_card_nsmul _ m hle
    _ = 256 * m := by simp

/-! ### The step -/

/-- Settles O54: what is taken from the inbox is no part of the invariant, and `exec_good` covers every operation. -/
theorem stepKeepsGood : Obligations.StepKeepsGood := by
  intro s t hs h
  have ht : t.Good := step_good hs h
  exact ⟨ht, fun m hm => pendBytes_le (ht.pendWithinMax m hm)⟩

end Sys2Proof.Machine
end

-- ==== Proofs: configuration, registers and reset ====
section
/-! The system operations on `CFG`, the registers and reset (R25, R30, R40, R220 to R224). -/

namespace Sys2Proof.Machine

/-! ### The fields of `CFG` -/

/-- The only code that names no mode is 3. -/
theorem relModeOf_eq (code : BitVec 2) :
    relModeOf code = if code.toNat = 3 then none
      else some (if code.toNat = 0 then .off else if code.toNat = 1 then .below else .above) := by
  revert code; decide

theorem relModeCode_of_relModeOf {code : BitVec 2} {m : RelMode} (h : relModeOf code = some m) :
    relModeCode m = code := by
  revert h; cases m <;> revert code <;> decide

theorem modeBits_toNat (v : BitVec 8) : (v.extractLsb' 2 2).toNat = v.toNat / 4 % 4 := by
  simp [BitVec.extractLsb'_toNat, Nat.shiftRight_eq_div_pow]

theorem relModeOf_bits (v : BitVec 8) :
    relModeOf (v.extractLsb' 2 2) = if v.toNat / 4 % 4 = 3 then none
      else some (if v.toNat / 4 % 4 = 0 then .off else if v.toNat / 4 % 4 = 1 then .below else .above) := by
  rw [relModeOf_eq, modeBits_toNat]

theorem cfgOf_reserved {v : BitVec 8} (h : v.toNat / 4 % 4 = 3) : cfgOf v = none := by
  rw [cfgOf, relModeOf_bits, if_pos h]

/-- A legal value gives the three fields by its bits 0, 1 and 3:2 (R25). -/
theorem cfgOf_legal {v : BitVec 8} (h : v.toNat / 4 % 4 ≠ 3) :
    cfgOf v = some { framingEn := decide (v.toNat % 2 = 1), verifyEn := decide (v.toNat / 2 % 2 = 1),
                     relMode := if v.toNat / 4 % 4 = 0 then .off
                       else if v.toNat / 4 % 4 = 1 then .below else .above } := by
  rw [cfgOf, relModeOf_bits, if_neg h]
  simp [BitVec.getLsbD, Nat.testBit_eq_decide_div_mod_eq]

theorem relModeCode_of_cfgOf {v : BitVec 8} {c : Cfg} (h : cfgOf v = some c) :
    (relModeCode c.relMode).toNat = v.toNat / 4 % 4 := by
  unfold cfgOf at h
  split at h <;> cases h
  rename_i hm
  rw [relModeCode_of_relModeOf hm, modeBits_toNat]

/-- `CFG` as a number. -/
theorem cfgReg_value (c : Cfg) :
    (cfgReg c).setWidth 32 =
      BitVec.ofNat 32 (c.framingEn.toNat + 2 * c.verifyEn.toNat + 4 * (relModeCode c.relMode).toNat) := by
  obtain ⟨f, v, m⟩ := c
  cases m <;> revert f v <;> decide

theorem toNat_decide_odd (n : Nat) : (decide (n % 2 = 1)).toNat = n % 2 := by
  rcases Nat.mod_two_eq_zero_or_one n with h | h <;> simp [h]

/-- A written value reads back without its bits 7:4 (R25). -/
theorem cfgReg_of_cfgOf {v : BitVec 8} {c : Cfg} (h : cfgOf v = some c) :
    (cfgReg c).setWidth 32 = BitVec.ofNat 32 (v.toNat % 16) := by
  have hmode := relModeCode_of_cfgOf h
  by_cases hres : v.toNat / 4 % 4 = 3
  · rw [cfgOf_reserved hres] at h; cases h
  · rw [cfgOf_legal hres] at h
    cases h
    rw [cfgReg_value, hmode, toNat_decide_odd, toNat_decide_odd]
    congr 1
    omega

/-! ### `CFG.WR` -/

theorem exec_cfgWr_none {v : BitVec 8} (h : cfgOf v = none) (s : State) :
    exec (.cfgWr v) s = .next (s.emitting [.result (.error (.contract .cfgReserved)) .none]) := by
  show Host.Outcome.next (writeCfg v s) = _
  simp [writeCfg, h, fail, emit_eq]

theorem exec_cfgWr_some {v : BitVec 8} {c : Cfg} (h : cfgOf v = some c) (s : State) :
    exec (.cfgWr v) s = .next ({ s with cfg := c }.emitting [.result .ok .none]) := by
  show Host.Outcome.next (writeCfg v s) = _
  simp [writeCfg, h, reply, emit_eq]

/-! ### `REG.RD` -/

theorem exec_regRd_some {s : State} {n : BitVec 8} {v : BitVec 32} (h : regRead s n = some v) :
    exec (.regRd n) s = .next (s.emitting [.result .ok (.value v)]) := by
  show execRegRd n s = _
  simp [execRegRd, h, reply, emit_eq]

theorem exec_regRd_none {s : State} {n : BitVec 8} (h : regRead s n = none) :
    exec (.regRd n) s = .next (s.emitting [.result (.error (.contract .registerNumber)) .none]) := by
  show execRegRd n s = _
  simp [execRegRd, h, fail, emit_eq]

theorem regRead_cfg (s : State) : regRead s 0 = some ((cfgReg s.cfg).setWidth 32) := rfl

theorem regRead_reserved (s : State) {n : BitVec 8} (h : 9 < n.toNat) : regRead s n = none := by
  unfold regRead
  split
  any_goals omega
  rfl

theorem statusReg_value (b : Bool) : (statusReg b).setWidth 32 = BitVec.ofNat 32 b.toNat := by
  cases b <;> rfl

theorem length32_of_lt {n : Nat} (h : n < 2 ^ 32) : length32 n = BitVec.ofNat 32 n := if_pos h

/-- The slots in the order of their numbers. -/
theorem wait_toList (s : State) : s.wait.toList = (List.range 256).map fun n => waitGet s (BitVec.ofNat 8 n) := by
  refine List.ext_getElem (by simp) fun n hn _ => ?_
  have hlt : n < 256 := by simpa using hn
  simp [waitGet, Nat.mod_eq_of_lt hlt]

theorem pend_toList (s : State) : s.pend.toList = (List.range 256).map fun n => pendGet s (BitVec.ofNat 8 n) := by
  refine List.ext_getElem (by simp) fun n hn _ => ?_
  have hlt : n < 256 := by simpa using hn
  simp [pendGet, Nat.mod_eq_of_lt hlt]

theorem waitCount_eq (s : State) :
    waitCount s = ((List.range 256).filter fun n => waitGet s (BitVec.ofNat 8 n) ≠ .idle).length := by
  rw [waitCount, wait_toList, List.countP_map, List.countP_eq_length_filter]
  congr 2
  funext n
  simp [bne, beq_eq_decide]

theorem pendCount_eq (s : State) :
    pendCount s = ((List.range 256).filter fun n => pendGet s (BitVec.ofNat 8 n) ≠ none).length := by
  rw [pendCount, pend_toList, List.countP_map, List.countP_eq_length_filter]
  congr 2
  funext n
  cases h : pendGet s (BitVec.ofNat 8 n) <;> simp [h]

/-! ### `REG.WR` -/

theorem exec_regWr_timeout (v : Nat) (s : State) :
    exec (.regWr 4 v) s = .next (
      if v ≤ 2 ^ 31 - 1 then { s with timeoutDefault := BitVec.ofNat 32 v }.emitting [.result .ok .none]
      else s.emitting [.result (.error (.contract .timeoutRange)) .none]) := by
  show execRegWr 4 v s = _
  rcases Nat.lt_or_ge timeoutMax v with hlt | hge
  · have hv : ¬ v ≤ 2 ^ 31 - 1 := Nat.not_le_of_lt hlt
    simp only [execRegWr, if_neg hv, if_pos hlt]
    rfl
  · have hv : v ≤ 2 ^ 31 - 1 := hge
    simp only [execRegWr, if_pos hv, if_neg (Nat.not_lt_of_le hge)]
    rfl

theorem execRegWr_other {n : BitVec 8} (h : n ≠ 4) (v : Nat) (s : State) :
    execRegWr n v s =
      if 2 ^ 32 ≤ v then .next (fail (.contract .fieldRange) s)
      else if n.toNat = 0 then .next (writeCfg (BitVec.ofNat 8 v) s)
      else if n.toNat ≤ 9 then .next (fail (.contract .readOnly) s)
      else .next (fail (.contract .registerNumber) s) := by
  have hn : n.toNat ≠ 4 := fun hc => h (BitVec.eq_of_toNat_eq hc)
  rw [execRegWr, if_neg hn]

theorem exec_regWr_cfg {v : Nat} (h : v < 2 ^ 32) (s : State) :
    exec (.regWr 0 v) s = .next (writeCfg (BitVec.ofNat 8 v) s) := by
  show execRegWr 0 v s = _
  rw [execRegWr_other (by decide), if_neg (Nat.not_le_of_lt h)]
  rfl

theorem exec_regWr_refused {n : BitVec 8} {v : Nat} (hv : v < 2 ^ 32) (h0 : n ≠ 0) (h4 : n ≠ 4) (s : State) :
    exec (.regWr n v) s = .next (s.emitting
      [.result (.error (.contract (if n.toNat ≤ 9 then .readOnly else .registerNumber))) .none]) := by
  show execRegWr n v s = _
  have hn : n.toNat ≠ 0 := fun hc => h0 (BitVec.eq_of_toNat_eq hc)
  rw [execRegWr_other h4, if_neg (Nat.not_le_of_lt hv), if_neg hn]
  split <;> rfl

theorem exec_regWr_wide {n : BitVec 8} {v : Nat} (hv : 2 ^ 32 ≤ v) (h4 : n ≠ 4) (s : State) :
    exec (.regWr n v) s = .next (s.emitting [.result (.error (.contract .fieldRange)) .none]) := by
  show execRegWr n v s = _
  rw [execRegWr_other h4, if_pos hv]
  rfl

/-! ### The obligations -/

/-- Settles O49: the two cases of `cfgOf`. -/
theorem cfgWriteOutcomes : Obligations.CfgWriteOutcomes := by
  intro v s
  split
  · rename_i hres
    exact exec_cfgWr_none (cfgOf_reserved hres) s
  · rename_i hlegal
    have hc := cfgOf_legal hlegal
    refine ⟨_, exec_cfgWr_some hc s, rfl, rfl, rfl, ?_⟩
    rw [← cfgReg_of_cfgOf hc]
    exact exec_regRd_some (regRead_cfg _)

/-- Settles O50, register by register. -/
theorem registerReads : Obligations.RegisterReads := by
  intro s reads
  have hread : ∀ (n : BitVec 8) (v : Nat), regRead s n = some (BitVec.ofNat 32 v) → reads n v :=
    fun n v h => exec_regRd_some h
  refine ⟨hread 0 _ ?_, hread 1 _ ?_, hread 2 _ ?_, hread 3 _ ?_, hread 4 _ ?_, hread 5 _ rfl, hread 6 _ ?_,
    fun hlen => hread 7 _ ?_, hread 8 _ ?_, hread 9 _ ?_, fun n hn => exec_regRd_none (regRead_reserved s hn)⟩
  · rw [regRead_cfg, cfgReg_value]
    cases s.cfg.relMode <;> rfl
  · exact congrArg some (statusReg_value s.rxClosed)
  · exact congrArg some (BitVec.ofNat_toNat 32 s.seq).symm
  · exact congrArg some (BitVec.ofNat_toNat 32 s.params.protocolVersion).symm
  · exact congrArg some (BitVec.ofNat_toNat 32 s.timeoutDefault).symm
  · exact congrArg some (BitVec.ofNat_toNat 32 s.now).symm
  · exact congrArg some (length32_of_lt hlen)
  · exact congrArg (fun n => some (BitVec.ofNat 32 n)) (waitCount_eq s)
  · exact congrArg (fun n => some (BitVec.ofNat 32 n)) (pendCount_eq s)

/-- Settles O51, one law of `REG.WR` for each clause. -/
theorem registerWrites : Obligations.RegisterWrites :=
  ⟨fun _ s hv => ⟨exec_regWr_cfg hv s, _, exec_regWr_cfg hv s⟩, exec_regWr_timeout,
    fun _ _ s hv h0 h4 => exec_regWr_refused hv h0 h4 s, fun _ _ s hv h4 => exec_regWr_wide hv h4 s⟩

/-- Settles O52: both resets lead to `resetBlock`, and the tables are those of the reset state. -/
theorem resetOutcomes : Obligations.ResetOutcomes := by
  refine ⟨fun s => ⟨reply .none (resetBlock s), rfl, rfl, rfl, rfl, rfl, rfl, rfl, pendGet_resetWith s.params,
    waitGet_resetWith s.params, rfl, rfl⟩, fun s t rest hin ht => ?_⟩
  cases ht
  exact step_resetPin hin

end Sys2Proof.Machine
end

-- ==== Proofs: where the model stops by name ====
section
/-! The stops of the receive path and of the internal operations (R28, R88, R112, R175, R208), and what `RX.CHUNK` does
where it does not stop. -/

namespace Sys2Proof.Machine

/-! ### The link -/

theorem whileOpen_closed {s : State} (h : s.rxClosed = true) (run : Result) :
    whileOpen s run = .refused .linkClosed := by
  simp [whileOpen, h]

theorem whileOpen_open {s : State} (h : s.rxClosed = false) (run : Result) : whileOpen s run = run := by
  simp [whileOpen, h]

/-! ### `CARRY_CAP` -/

theorem unpackChunk_fits {s : State} {chunk : Bytes} (h : s.WithinCap (afterLastZero (s.carry ++ chunk))) :
    unpackChunk chunk s =
      .ok ((frameUnpack s.carry chunk).1, { s with carry := (frameUnpack s.carry chunk).2 }) := by
  rw [← frameUnpack_carry] at h
  exact if_pos (carryFits_iff_withinCap.2 h)

theorem unpackChunk_overflow {s : State} {chunk : Bytes} (h : ¬ s.WithinCap (afterLastZero (s.carry ++ chunk))) :
    unpackChunk chunk s = .error .carryOverflow := by
  rw [← frameUnpack_carry] at h
  exact if_neg (fun hfits => h (carryFits_iff_withinCap.1 hfits))

/-! ### `RX.CHUNK` and `FRM.UNPACK`, the link not closed -/

theorem exec_rxChunk_framed {s : State} (hopen : s.rxClosed = false) (hframing : s.cfg.framingEn = true)
    {chunk : Bytes} (hcap : s.WithinCap (afterLastZero (s.carry ++ chunk))) :
    exec (.rxChunk chunk) s =
      .next (processAll (frameUnpack s.carry chunk).1 { s with carry := (frameUnpack s.carry chunk).2 }) := by
  show execRxChunk chunk s = _
  rw [execRxChunk, whileOpen_open hopen, if_pos hframing, unpackChunk_fits hcap]

theorem exec_rxChunk_overflow {s : State} (hopen : s.rxClosed = false) (hframing : s.cfg.framingEn = true)
    {chunk : Bytes} (hcap : ¬ s.WithinCap (afterLastZero (s.carry ++ chunk))) :
    exec (.rxChunk chunk) s = .refused .carryOverflow := by
  show execRxChunk chunk s = _
  rw [execRxChunk, whileOpen_open hopen, if_pos hframing, unpackChunk_overflow hcap]

theorem exec_rxChunk_unframed {s : State} (hopen : s.rxClosed = false) (hframing : s.cfg.framingEn = false)
    (chunk : Bytes) : exec (.rxChunk chunk) s = .next (processCandidate chunk s) := by
  show execRxChunk chunk s = _
  rw [execRxChunk, whileOpen_open hopen, if_neg (by simp [hframing])]
  rfl

theorem exec_frmUnpack_overflow {s : State} (hopen : s.rxClosed = false) (hframing : s.cfg.framingEn = true)
    {chunk : Bytes} (hcap : ¬ s.WithinCap (afterLastZero (s.carry ++ chunk))) :
    exec (.frmUnpack chunk) s = .refused .carryOverflow := by
  show execFrmUnpack chunk s = _
  rw [execFrmUnpack, whileOpen_open hopen, if_pos hframing, unpackChunk_overflow hcap]

theorem exec_frmUnpack_unframed {s : State} (hopen : s.rxClosed = false) (hframing : s.cfg.framingEn = false)
    (chunk : Bytes) : exec (.frmUnpack chunk) s = .refused .notStarted := by
  show execFrmUnpack chunk s = _
  rw [execFrmUnpack, whileOpen_open hopen, if_neg (by simp [hframing])]

/-! ### The internal operations -/

theorem headerFits_eq_false {mode : RelMode} {header : Option RtHeader}
    (h : mode = .off ∨ (mode = .below ∧ header ≠ none) ∨ (mode = .above ∧ header = none)) :
    headerFits mode header = false := by
  rcases h with rfl | ⟨rfl, hsome⟩ | ⟨rfl, rfl⟩
  · rfl
  · simpa [headerFits] using Option.isSome_iff_ne_none.2 hsome
  · rfl

theorem whileReliable_notStarted {s : State} {header : Option RtHeader} (hopen : s.rxClosed = false)
    (h : headerFits s.cfg.relMode header = false) (run : State) :
    whileReliable header s run = .refused .notStarted := by
  rw [whileReliable, whileOpen_open hopen, if_neg (by simp [h])]

theorem exec_waitPoll_idle {s : State} {q : SeqNo} (h : waitGet s q = .idle) :
    exec (.waitPoll q) s = .refused .notStarted := by
  show execWaitPoll q s = _
  rw [execWaitPoll, h]

/-- Settles O40, one law of each stop for each clause. -/
theorem stopsByName : Obligations.StopsByName := by
  refine ⟨fun b q h x rv ft s hclosed i hi => ?_, fun chunk cap s hopen hframing hcap hlong => ?_,
    fun b q h s hopen hmode i hi => ?_, fun b s hopen hframing => exec_frmUnpack_unframed hopen hframing b,
    fun q s hidle => exec_waitPoll_idle hidle⟩
  · fin_cases hi <;> exact whileOpen_closed hclosed _
  · have hover : ¬ s.WithinCap (afterLastZero (s.carry ++ chunk)) := fun hfits =>
      absurd (hfits cap hcap) (Nat.not_le_of_lt hlong)
    exact ⟨exec_rxChunk_overflow hopen hframing hover, exec_frmUnpack_overflow hopen hframing hover⟩
  · have hfits := headerFits_eq_false hmode
    fin_cases hi <;> exact whileReliable_notStarted hopen hfits _

end Sys2Proof.Machine
end

-- ==== Proofs: what an operation does to a table entry ====
section
/-! For one entry of `PEND` and one slot of `WAIT`: everything an operation can do to it (R158 to R161, R172, R175,
R182, R183, R209, R224, R226). -/

namespace Sys2Proof.Machine

/-! ### Lengths through the receive path -/

theorem verUnpack_length {x b : Bytes} (h : verUnpack x = .ok b) : b.length + 2 = x.length := by
  unfold verUnpack at h
  split at h
  · cases h
  · split at h <;> cases h
    rw [List.length_take]
    omega

theorem rtUnpack_length {v : BitVec 2} {x p : Bytes} {hd : RtHeader} (h : rtUnpack v x = .ok (hd, p)) :
    p.length + 1 = x.length := by
  cases x with
  | nil => cases h
  | cons b rest =>
    simp only [rtUnpack] at h
    split at h <;> cases h
    rfl

theorem rspUnpack_length {x : Bytes} {r : RspParts} (h : rspUnpack x = .ok r) : r.data.length + 2 = x.length := by
  unfold rspUnpack at h
  split at h
  · split at h <;> cases h
    rfl
  · cases h
  · cases h

/-! ### Which response the receive path stores -/

/-- The entry of number `q` is as it was, or holds a response whose payload satisfies `P`. -/
def KeptOrStored (P : Bytes → Prop) (q : SeqNo) (s t : State) : Prop :=
  pendGet t q = pendGet s q ∨
    ∃ ft d, P d ∧ pendGet t q = some { frameType := ft, data := storedData s.params q d }

theorem KeptOrStored.mono {P Q : Bytes → Prop} {q : SeqNo} {s t : State} (h : KeptOrStored P q s t)
    (hPQ : ∀ d, P d → Q d) : KeptOrStored Q q s t :=
  h.imp_right fun ⟨ft, d, hd, ht⟩ => ⟨ft, d, hPQ d hd, ht⟩

theorem KeptOrStored.trans {P : Bytes → Prop} {q : SeqNo} {s t u : State} (h : KeptOrStored P q s t)
    (hparams : t.params = s.params) (k : KeptOrStored P q t u) : KeptOrStored P q s u := by
  rcases k with hkept | ⟨ft, d, hd, hu⟩
  · rcases h with h | ⟨ft, d, hd, ht⟩
    · exact .inl (hkept.trans h)
    · exact .inr ⟨ft, d, hd, hkept.trans ht⟩
  · exact .inr ⟨ft, d, hd, hparams ▸ hu⟩

theorem pendStore_keptOrStored (q r : SeqNo) (ft : RespType) (d : Bytes) (s : State) :
    KeptOrStored (· = d) r s (pendStore q ft d s) := by
  rw [KeptOrStored, pendGet_pendStore]
  split
  · rename_i hr
    subst hr
    exact .inr ⟨ft, d, rfl, rfl⟩
  · exact .inl rfl

theorem pendGet_handler (req : HandlerRequest) (s : State) (r : SeqNo) :
    pendGet (handler req s).2 r = pendGet s r :=
  pendGet_congr (by rw [handler_eq]) r

theorem dispatch_keptOrStored (ft : FrameType) (q r : SeqNo) (header : Option RtHeader) (d : Bytes) (s : State) :
    KeptOrStored (· = d) r s (dispatch ft q header d s) := by
  cases ft with
  | dataAck => exact .inl (pendGet_handler ⟨q, .dataAck, header, d⟩ s r)
  | dataNoack => exact .inl (pendGet_handler ⟨q, .dataNoack, header, d⟩ s r)
  | respAck => exact pendStore_keptOrStored q r .ack d s
  | respNack => exact pendStore_keptOrStored q r .nack d s

theorem receiveReliability_keptOrStored (raw : Bytes) (header : Option RtHeader) (body : Bytes) (r : SeqNo)
    (s : State) : KeptOrStored (fun d => d.length + 2 = body.length) r s (receiveReliability raw header body s) := by
  unfold receiveReliability
  split
  · exact .inl rfl
  · rename_i parts hparts
    exact (dispatch_keptOrStored _ _ r header _ s).mono fun d hd => hd ▸ rspUnpack_length hparts

theorem receiveBody_keptOrStored (raw body : Bytes) (r : SeqNo) (s : State) :
    KeptOrStored (fun d => d.length + 2 ≤ body.length) r s (receiveBody raw body s) := by
  unfold receiveBody
  split
  · split <;> exact .inl rfl
  · exact (receiveReliability_keptOrStored raw none body r s).mono fun _ hd => hd.le
  · split
    · exact .inl rfl
    · rename_i hd rest hunpack
      have hlen := rtUnpack_length hunpack
      exact (receiveReliability_keptOrStored raw (some hd) rest r s).mono fun d hd => by omega

/-- In `OFF` mode nothing is stored (R210). -/
theorem pendGet_receiveBody_off {s : State} (h : s.cfg.relMode = .off) (raw body : Bytes) (r : SeqNo) :
    pendGet (receiveBody raw body s) r = pendGet s r := by
  rw [receiveBody, h]
  dsimp only
  split <;> rfl

theorem processCandidate_keptOrStored (x : Bytes) (r : SeqNo) (s : State) :
    KeptOrStored (fun d => d.length + 4 ≤ x.length) r s (processCandidate x s) := by
  unfold processCandidate
  split
  · split
    · exact .inl rfl
    · rename_i body hbody
      have hlen := verUnpack_length hbody
      exact (receiveBody_keptOrStored x body r s).mono fun d hd => by omega
  · rename_i heff
    have hplain : s.cfg.verifyEn = false ∧ s.cfg.relMode = .off := by simpa [verifyEff] using heff
    exact .inl (pendGet_receiveBody_off hplain.2 x x r)

theorem processAll_keptOrStored (l : List Candidate) (r : SeqNo) (s : State) :
    KeptOrStored (fun d => ∃ x, .ok x ∈ l ∧ d.length + 4 ≤ x.length) r s (processAll l s) := by
  induction l generalizing s with
  | nil => exact .inl rfl
  | cons c l ih =>
    have hfirst : KeptOrStored (fun d => ∃ x, .ok x ∈ c :: l ∧ d.length + 4 ≤ x.length) r s
        (processResult s c) := by
      cases c with
      | ok x => exact (processCandidate_keptOrStored x r s).mono fun d hd => ⟨x, by simp, hd⟩
      | err reason raw => exact .inl rfl
    have hparams : (processResult s c).params = s.params := (received_all [c] s).params
    exact hfirst.trans hparams ((ih (processResult s c)).mono fun d ⟨x, hx, hd⟩ => ⟨x, by simp [hx], hd⟩)

/-! ### The operations of the receive path -/

theorem whileOpen_next {s t : State} {run : Result} (h : whileOpen s run = .next t) :
    s.rxClosed = false ∧ run = .next t := by
  cases hclosed : s.rxClosed with
  | true => rw [whileOpen_closed hclosed] at h; cases h
  | false => rw [whileOpen_open hclosed] at h; exact ⟨rfl, h⟩

theorem whileReliable_next {s t run : State} {header : Option RtHeader} (h : whileReliable header s run = .next t) :
    s.rxClosed = false ∧ t = run := by
  obtain ⟨hopen, hrun⟩ := whileOpen_next h
  split at hrun <;> cases hrun
  exact ⟨hopen, rfl⟩

/-- A header row is the arrival of its body (R74, R76; log 8). -/
theorem exec_arrivingBody {i : Instr} {b : Bytes} (h : Instr.arrivingBody i = some b) (s : State) :
    exec i s = bodyArrives b s := by
  cases i with
  | rtHdr _ _ | rspHdrDataAck _ _ _ _ | rspHdrDataNoack _ _ _ _ | rspHdrRespAck _ _ _ _ | rspHdrRespNack _ _ _ _
  | rspHdrReserved _ _ _ _ _ => cases h; rfl
  | _ => cases h

theorem bodyArrives_next {s t : State} {b : Bytes} (h : bodyArrives b s = .next t) :
    s.rxClosed = false ∧ t = receiveBody (unitOf s.cfg b) b s := by
  obtain ⟨hopen, hrun⟩ := whileOpen_next h
  cases hrun
  exact ⟨hopen, rfl⟩

theorem exec_rxChunk_next {s t : State} {chunk : Bytes} (h : exec (.rxChunk chunk) s = .next t) :
    s.rxClosed = false ∧ ∃ c : Bytes, t = processAll (candidatesOf s chunk) { s with carry := c } := by
  have hopen := (whileOpen_next h).1
  refine ⟨hopen, ?_⟩
  cases hframing : s.cfg.framingEn with
  | false =>
    rw [exec_rxChunk_unframed hopen hframing] at h
    cases h
    exact ⟨s.carry, by simp [candidatesOf, hframing, processAll, processResult]⟩
  | true =>
    by_cases hcap : s.WithinCap (afterLastZero (s.carry ++ chunk))
    · rw [exec_rxChunk_framed hopen hframing hcap] at h
      cases h
      exact ⟨(frameUnpack s.carry chunk).2, by simp [candidatesOf, hframing]⟩
    · rw [exec_rxChunk_overflow hopen hframing hcap] at h
      cases h

theorem exec_frmUnpack_pend {s t : State} {chunk : Bytes} (h : exec (.frmUnpack chunk) s = .next t) :
    t.pend = s.pend := by
  obtain ⟨-, hrun⟩ := whileOpen_next h
  split at hrun
  · split at hrun <;> cases hrun
    rename_i hunpack
    cases (unpackChunk_cases hunpack).2
    rfl
  · cases hrun

/-! ### One entry of `PEND` -/

/-- The operation stores a response of this type and payload as `PEND[q]` (R158, R182, R183), where it is one received
with a chunk or with a body its length is bounded by the candidate's (R27, R72). -/
inductive StoresResponse (s : State) (q : SeqNo) : Instr → RespType → Bytes → Prop where
  | store (ft : RespType) (d : Bytes) : StoresResponse s q (.pendStore q ft d) ft d
  | ack (header : Option RtHeader) (d : Bytes) (isOpen : s.rxClosed = false) :
    StoresResponse s q (.rxRespAck q header d) .ack d
  | nack (header : Option RtHeader) (d : Bytes) (isOpen : s.rxClosed = false) :
    StoresResponse s q (.rxRespNack q header d) .nack d
  | chunk (c x : Bytes) (ft : RespType) (d : Bytes) (isOpen : s.rxClosed = false) (hx : .ok x ∈ candidatesOf s c)
    (hd : d.length + 4 ≤ x.length) : StoresResponse s q (.rxChunk c) ft d
  | body (i : Instr) (b : Bytes) (ft : RespType) (d : Bytes) (isOpen : s.rxClosed = false)
    (hb : Instr.arrivingBody i = some b) (hd : d.length + 2 ≤ b.length) : StoresResponse s q i ft d

/-- The operation is one of those that can empty `PEND[q]` (R159, R160, R172, R175, R224, R226). -/
def EmptiesEntry (s : State) (q : SeqNo) (i : Instr) : Prop :=
  i = .pendTake q ∨ i = .pendPurge q ∨ i = .waitPoll q ∨ i = .tick ∨ i = .reset ∨
    (q = s.seq + 1 ∧ ∃ d timeout ch rr, i = .sendAck d timeout ch rr)

/-- Everything an operation can do to one entry: leave it, empty it, store a response there. -/
def EntryOutcome (i : Instr) (q : SeqNo) (s t : State) : Prop :=
  pendGet t q = pendGet s q ∨ (pendGet t q = none ∧ EmptiesEntry s q i) ∨
    ∃ ft d, StoresResponse s q i ft d ∧ pendGet t q = some { frameType := ft, data := storedData s.params q d }

theorem KeptOrStored.entryOutcome {P : Bytes → Prop} {i : Instr} {q : SeqNo} {s t : State}
    (h : KeptOrStored P q s t) (hP : ∀ ft d, P d → StoresResponse s q i ft d) : EntryOutcome i q s t :=
  h.imp_right fun ⟨ft, d, hd, ht⟩ => .inr ⟨ft, d, hP ft d hd, ht⟩

theorem pendSet_entryOutcome {s : State} (q r : SeqNo) {i : Instr} (h : EmptiesEntry s q i) :
    EntryOutcome i r s (pendSet q none s) := by
  rw [EntryOutcome, pendGet_pendSet]
  split
  · rename_i hr
    subst hr
    exact .inr (.inl ⟨rfl, h⟩)
  · exact .inl rfl

theorem pendStore_entryOutcome {s : State} {q : SeqNo} {i : Instr} {ft : RespType} {d : Bytes}
    (h : StoresResponse s q i ft d) (r : SeqNo) : EntryOutcome i r s (pendStore q ft d s) := by
  rw [EntryOutcome, pendGet_pendStore]
  split
  · rename_i hr
    subst hr
    exact .inr (.inr ⟨ft, d, h, rfl⟩)
  · exact .inl rfl

theorem exec_body_entryOutcome {i : Instr} {b : Bytes} {s t : State} (hb : Instr.arrivingBody i = some b)
    (h : exec i s = .next t) (q : SeqNo) : EntryOutcome i q s t := by
  rw [exec_arrivingBody hb] at h
  obtain ⟨hopen, rfl⟩ := bodyArrives_next h
  exact (receiveBody_keptOrStored _ b q s).entryOutcome fun ft d hd => .body i b ft d hopen hb hd

theorem exec_rxChunk_entryOutcome {c : Bytes} {s t : State} (h : exec (.rxChunk c) s = .next t) (q : SeqNo) :
    EntryOutcome (.rxChunk c) q s t := by
  obtain ⟨hopen, carry, rfl⟩ := exec_rxChunk_next h
  have hall := processAll_keptOrStored (candidatesOf s c) q { s with carry := carry }
  exact KeptOrStored.entryOutcome (s := s) hall fun ft d ⟨x, hx, hd⟩ => .chunk c x ft d hopen hx hd

theorem exec_receives_entryOutcome {i : Instr} {s t : State} (hi : receives i = true) (h : exec i s = .next t)
    (q : SeqNo) : EntryOutcome i q s t := by
  cases i with
  | rxChunk c => exact exec_rxChunk_entryOutcome h q
  | frmUnpack c => exact .inl (pendGet_congr (exec_frmUnpack_pend h) q)
  | rxDataAck q' header d =>
    obtain ⟨-, rfl⟩ := whileReliable_next h
    exact .inl (pendGet_handler ⟨q', .dataAck, header, d⟩ s q)
  | rxDataNoack q' header d =>
    obtain ⟨-, rfl⟩ := whileReliable_next h
    exact .inl (pendGet_handler ⟨q', .dataNoack, header, d⟩ s q)
  | rxRespAck q' header d =>
    obtain ⟨hopen, rfl⟩ := whileReliable_next h
    exact pendStore_entryOutcome (.ack header d hopen) q
  | rxRespNack q' header d =>
    obtain ⟨hopen, rfl⟩ := whileReliable_next h
    exact pendStore_entryOutcome (.nack header d hopen) q
  | rtHdr _ _ | rspHdrDataAck _ _ _ _ | rspHdrDataNoack _ _ _ _ | rspHdrRespAck _ _ _ _ | rspHdrRespNack _ _ _ _
  | rspHdrReserved _ _ _ _ _ => exact exec_body_entryOutcome rfl h q
  | _ => cases hi

theorem waitPoll_entryOutcome {s : State} (q r : SeqNo) (t0 timeout : Ticks) {i : Instr} (h : EmptiesEntry s q i) :
    EntryOutcome i r s (waitPoll q t0 timeout s) := by
  rcases waitPoll_cases q t0 timeout s with ⟨o, -, hpoll⟩ | ⟨-, hpoll⟩ <;> rw [hpoll]
  · exact pendSet_entryOutcome q r h
  · exact .inl rfl

theorem pendGet_requested (route : Route) (data : Bytes) (timeout : Ticks) (s : State) (r : SeqNo) :
    pendGet (requested route data timeout s) r = if r = s.seq + 1 then none else pendGet s r :=
  pendGet_pendSet { s with seq := s.seq + 1 } (s.seq + 1) r none

theorem waitGet_requested (route : Route) (data : Bytes) (timeout : Ticks) (s : State) (r : SeqNo) :
    waitGet (requested route data timeout s) r = if r = s.seq + 1 then .busy s.now timeout else waitGet s r :=
  waitGet_waitSet (pendSet (s.seq + 1) none { s with seq := s.seq + 1 }) (s.seq + 1) r (.busy s.now timeout)

/-- A request purges its own entry, so its first poll finds none. -/
theorem pendGet_request (route : Route) (data : Bytes) (timeout : Ticks) (s : State) (r : SeqNo) :
    pendGet (waitPoll (s.seq + 1) s.now timeout (requested route data timeout s)) r =
      if r = s.seq + 1 then none else pendGet s r := by
  rcases waitPoll_cases (s.seq + 1) s.now timeout (requested route data timeout s) with
    ⟨o, -, hpoll⟩ | ⟨-, hpoll⟩ <;> rw [hpoll]
  · rw [pendGet_emitting, pendGet_waitSet, pendGet_pendSet, pendGet_requested]
    split <;> rfl
  · exact pendGet_requested route data timeout s r

theorem tickOnce_entryOutcome (s : State) (q : SeqNo) : EntryOutcome .tick q s (tickOnce s) := by
  cases hev : tickEvent (s.now + 1) q (waitGet s q) (pendGet s q) with
  | some o => exact .inr (.inl ⟨(tickOnce_of_event hev).2, by simp [EmptiesEntry]⟩)
  | none => exact .inl (tickOnce_of_noEvent hev).2

/-- Every next state of an operation, seen at one entry of `PEND`. -/
theorem exec_entryOutcome {i : Instr} {s t : State} (h : exec i s = .next t) (q : SeqNo) : EntryOutcome i q s t := by
  cases exec_cases h with
  | outputs _ l _ => exact .inl rfl
  | config _ c _ => exact .inl rfl
  | timeout v _ => exact .inl rfl
  | request d timeout ch rr route _ _ =>
    rw [EntryOutcome, pendGet_emitting, pendGet_request]
    split
    · exact .inr (.inl ⟨rfl, by simp [EmptiesEntry, *]⟩)
    · exact .inl rfl
  | reset => exact .inr (.inl ⟨pendGet_resetWith s.params q, by simp [EmptiesEntry]⟩)
  | chunk c _ _ _ => exact exec_rxChunk_entryOutcome h q
  | segments c _ _ => exact .inl rfl
  | received _ _ hi _ _ => exact exec_receives_entryOutcome hi h q
  | closed => exact .inl rfl
  | sequence => exact .inl rfl
  | pending _ r e l hi _ =>
    rcases hi with ⟨ft, d, rfl⟩ | rfl | rfl
    · exact Host.Outcome.next.inj h ▸ pendStore_entryOutcome (.store ft d) q
    · exact Host.Outcome.next.inj h ▸ pendSet_entryOutcome r q (by simp [EmptiesEntry])
    · exact Host.Outcome.next.inj h ▸ pendSet_entryOutcome r q (by simp [EmptiesEntry])
  | tick => exact tickOnce_entryOutcome s q
  | poll r t0 timeout _ => exact waitPoll_entryOutcome r q t0 timeout (by simp [EmptiesEntry])

/-! ### `DONE` events -/

@[simp] theorem isDone_link (q : SeqNo) (b : Bytes) : (Output.link b).isDone q = false := rfl
@[simp] theorem isDone_result (q : SeqNo) (st : Status) (f : Fields) : (Output.result st f).isDone q = false := rfl
@[simp] theorem isDone_returned (q : SeqNo) (r : Returned) : (Output.returned r).isDone q = false := rfl

theorem isDone_of_ofCommand {o : Output} (h : o.ofCommand = true) (q : SeqNo) : o.isDone q = false := by
  cases o with
  | event e => cases h
  | _ => rfl

theorem isDone_of_ofReceive {o : Output} (h : o.ofReceive = true) (q : SeqNo) : o.isDone q = false := by
  cases o with
  | event e =>
    cases e with
    | done _ _ _ _ => cases h
    | _ => rfl
  | _ => rfl

theorem filter_isDone_eq_nil {l : List Output} {q : SeqNo} (h : ∀ o ∈ l, o.isDone q = false) :
    l.filter (Output.isDone q) = [] :=
  List.filter_eq_nil_iff.2 fun o ho => by simp [h o ho]

/-- Of the events of distinct slots, the `DONE` events of one number are those of its slot. -/
theorem filter_isDone_filterMap {f : SeqNo → Option Output}
    (hf : ∀ r o, f r = some o → ∀ q, o.isDone q = (r == q)) (q : SeqNo) {l : List SeqNo} (hl : l.Nodup) :
    (l.filterMap f).filter (Output.isDone q) = if q ∈ l then (f q).toList else [] := by
  induction l with
  | nil => rfl
  | cons r l ih =>
    obtain ⟨hr, hl⟩ := List.nodup_cons.1 hl
    have ih := ih hl
    by_cases hrq : r = q
    · subst hrq
      rw [if_neg hr] at ih
      cases hfr : f r with
      | none => simp [hfr, ih]
      | some o => simp [hfr, ih, hf r o hfr r]
    · have hne : (r == q) = false := by simpa using hrq
      have hmem : q ∈ r :: l ↔ q ∈ l := by simp [Ne.symm hrq]
      simp only [hmem]
      cases hfr : f r with
      | none => rw [List.filterMap_cons_none hfr, ih]
      | some o => rw [List.filterMap_cons_some hfr, List.filter_cons_of_neg (by simp [hf r o hfr q, hne]), ih]

/-! ### One slot of `WAIT` -/

/-- Everything an operation can do to one slot: leave it without a `DONE` event, end it with one, drop it by a reset,
make it busy by a request. -/
def SlotOutcome (i : Instr) (q : SeqNo) (s t : State) : Prop :=
  ∃ l, t.out = s.out ++ l ∧
    ((waitGet t q = waitGet s q ∧ l.filter (Output.isDone q) = []) ∨
     (waitGet s q ≠ .idle ∧ waitGet t q = .idle ∧ i ≠ .reset ∧ (l.filter (Output.isDone q)).length = 1) ∨
     (waitGet t q = .idle ∧ i = .reset ∧ l.filter (Output.isDone q) = []) ∨
     (waitGet s q = .idle ∧ q = s.seq + 1 ∧ ∃ d timeout ch rr, i = .sendAck d timeout ch rr))

theorem slotOutcome_kept {i : Instr} {q : SeqNo} {s t : State} {l : List Output} (hout : t.out = s.out ++ l)
    (hw : waitGet t q = waitGet s q) (hl : ∀ o ∈ l, o.isDone q = false) : SlotOutcome i q s t :=
  ⟨l, hout, .inl ⟨hw, filter_isDone_eq_nil hl⟩⟩

theorem slotOutcome_untouched {i : Instr} {s t : State} (hw : t.wait = s.wait) (hout : t.out = s.out) (q : SeqNo) :
    SlotOutcome i q s t :=
  slotOutcome_kept (l := []) (by simp [hout]) (waitGet_congr hw q) (by simp)

theorem SlotOutcome.emitting {i : Instr} {q : SeqNo} {s t : State} (h : SlotOutcome i q s t) {m : List Output}
    (hm : ∀ o ∈ m, o.ofCommand = true) : SlotOutcome i q s (t.emitting m) := by
  obtain ⟨l, hl, ho⟩ := h
  have hnil : m.filter (Output.isDone q) = [] := filter_isDone_eq_nil fun o h => isDone_of_ofCommand (hm o h) q
  exact ⟨l ++ m, by simp [hl], by simpa only [List.filter_append, hnil, List.append_nil, waitGet_emitting] using ho⟩

theorem received_slotOutcome {s t : State} (h : Received s t) (i : Instr) (q : SeqNo) : SlotOutcome i q s t := by
  have hw := h.waitGet q
  obtain ⟨l, ht, hl, -⟩ := h
  exact slotOutcome_kept (l := l) (by rw [ht]) hw fun o ho => isDone_of_ofReceive (hl o ho) q

theorem tickOnce_slotOutcome (s : State) (q : SeqNo) : SlotOutcome .tick q s (tickOnce s) := by
  refine ⟨_, tickOnce_out s, ?_⟩
  rw [filter_isDone_filterMap (fun r o ho => tickEvent_isDone ho) q allSequences_nodup,
    if_pos (mem_allSequences q)]
  cases hev : tickEvent (s.now + 1) q (waitGet s q) (pendGet s q) with
  | none => exact .inl ⟨(tickOnce_of_noEvent hev).1, rfl⟩
  | some o =>
    have hbusy : waitGet s q ≠ .idle := fun hidle => by rw [hidle, tickEvent_idle] at hev; cases hev
    exact .inr (.inl ⟨hbusy, (tickOnce_of_event hev).1, by simp, rfl⟩)

theorem waitPoll_slotOutcome {s : State} {r : SeqNo} {t0 timeout : Ticks} (h : waitGet s r = .busy t0 timeout)
    (q : SeqNo) : SlotOutcome (.waitPoll r) q s (waitPoll r t0 timeout s) := by
  rcases waitPoll_cases r t0 timeout s with ⟨o, ho, hpoll⟩ | ⟨-, hpoll⟩ <;> rw [hpoll]
  · by_cases hqr : q = r
    · subst hqr
      exact ⟨[o], rfl, .inr (.inl ⟨by simp [h], waitGet_waitSet_same _ _ _, by simp, by simp [ho]⟩)⟩
    · exact slotOutcome_kept (l := [o]) rfl (waitGet_waitSet_other _ hqr _) (by simpa [ho] using Ne.symm hqr)
  · exact slotOutcome_untouched rfl rfl q

/-- A request leaves the other slots alone: its first poll can end its own slot only. -/
theorem request_slotOutcome {s : State} (idle : waitGet s (s.seq + 1) = .idle) (q : SeqNo) (d : Bytes)
    (timeout : Option Nat) (ch : Nat) (rr : BitVec 1) (route : Route) (T : Ticks) :
    SlotOutcome (.sendAck d timeout ch rr) q s (waitPoll (s.seq + 1) s.now T (requested route d T s)) := by
  obtain ⟨b, hb⟩ : ∃ b, (requested route d T s).out = s.out ++ [.link b] := ⟨_, rfl⟩
  by_cases hq : q = s.seq + 1
  · subst hq
    have hout : ∃ l, (waitPoll (s.seq + 1) s.now T (requested route d T s)).out = s.out ++ l := by
      rcases waitPoll_cases (s.seq + 1) s.now T (requested route d T s) with
        ⟨o, -, hpoll⟩ | ⟨-, hpoll⟩ <;> rw [hpoll]
      · exact ⟨[.link b, o], by simp [hb]⟩
      · exact ⟨[.link b], hb⟩
    obtain ⟨l, hl⟩ := hout
    exact ⟨l, hl, .inr (.inr (.inr ⟨idle, rfl, d, timeout, ch, rr, rfl⟩))⟩
  · have hw : waitGet (requested route d T s) q = waitGet s q := by rw [waitGet_requested, if_neg hq]
    rcases waitPoll_cases (s.seq + 1) s.now T (requested route d T s) with
      ⟨o, ho, hpoll⟩ | ⟨-, hpoll⟩ <;> rw [hpoll]
    · have hne : o.isDone q = false := by simpa [ho] using Ne.symm hq
      exact slotOutcome_kept (l := [.link b, o]) (by simp [hb]) ((waitGet_waitSet_other _ hq _).trans hw)
        (by simp [hne])
    · exact slotOutcome_kept hb hw (by simp)

/-- Every next state of an operation, seen at one slot of `WAIT`. -/
theorem exec_slotOutcome {i : Instr} {s t : State} (h : exec i s = .next t) (q : SeqNo) : SlotOutcome i q s t := by
  cases exec_cases h with
  | outputs _ l hl => exact (slotOutcome_untouched rfl rfl q).emitting hl
  | config _ c _ => exact slotOutcome_kept rfl rfl (by simp)
  | timeout v _ => exact slotOutcome_kept rfl rfl (by simp)
  | request d timeout ch rr route idle _ =>
    exact (request_slotOutcome idle q d timeout ch rr route _).emitting (by simp [Output.ofCommand])
  | reset => exact ⟨_, rfl, .inr (.inr (.inl ⟨waitGet_resetWith s.params q, rfl, rfl⟩))⟩
  | chunk c _ _ hr _ => exact received_slotOutcome (s := { s with carry := (frameUnpack s.carry c).2 }) hr _ q
  | segments c _ _ => exact slotOutcome_kept rfl rfl (by simp)
  | received _ _ _ hr _ => exact received_slotOutcome hr i q
  | closed => exact slotOutcome_untouched rfl rfl q
  | sequence => exact slotOutcome_kept rfl rfl (by simp)
  | pending _ r e l _ hl => exact slotOutcome_kept rfl rfl fun o ho => isDone_of_ofCommand (hl o ho) q
  | tick => exact tickOnce_slotOutcome s q
  | poll r t0 timeout hbusy => exact waitPoll_slotOutcome hbusy q

end Sys2Proof.Machine
end

-- ==== Proofs: which operation writes which state ====
section
/-! The writers of each piece of state (R20, R29 to R37), the end of a waiter (R175, R261), and the closed link
(R28, R55). -/

namespace Sys2Proof.Machine

/-! ### The registers and the buffer -/

/-- A poll writes `PEND`, `WAIT` and the outputs alone. -/
theorem waitPoll_frame (q : SeqNo) (t0 timeout : Ticks) (s : State) :
    waitPoll q t0 timeout s = { s with pend := (waitPoll q t0 timeout s).pend,
                                       wait := (waitPoll q t0 timeout s).wait,
                                       out := (waitPoll q t0 timeout s).out } := by
  rcases waitPoll_cases q t0 timeout s with ⟨o, -, hpoll⟩ | ⟨-, hpoll⟩
  · rw [hpoll]; rfl
  · rw [hpoll]

section
variable (q : SeqNo) (t0 timeout : Ticks) (s : State)

@[simp] theorem waitPoll_cfg : (waitPoll q t0 timeout s).cfg = s.cfg := by rw [waitPoll_frame]
@[simp] theorem waitPoll_rxClosed : (waitPoll q t0 timeout s).rxClosed = s.rxClosed := by rw [waitPoll_frame]
@[simp] theorem waitPoll_seq : (waitPoll q t0 timeout s).seq = s.seq := by rw [waitPoll_frame]
@[simp] theorem waitPoll_timeoutDefault : (waitPoll q t0 timeout s).timeoutDefault = s.timeoutDefault := by
  rw [waitPoll_frame]
@[simp] theorem waitPoll_now : (waitPoll q t0 timeout s).now = s.now := by rw [waitPoll_frame]
@[simp] theorem waitPoll_carry : (waitPoll q t0 timeout s).carry = s.carry := by rw [waitPoll_frame]
@[simp] theorem waitPoll_params : (waitPoll q t0 timeout s).params = s.params := by rw [waitPoll_frame]

end

/-- Of the parameters, the registers and the buffer, an operation changes what its effect names. -/
theorem exec_registers {i : Instr} {s t : State} (h : exec i s = .next t) :
    t.params = s.params ∧
    (t.seq ≠ s.seq → i = .seqNext ∨ i = .reset ∨ ∃ d timeout ch rr, i = .sendAck d timeout ch rr) ∧
    (t.now ≠ s.now → i = .tick ∨ i = .reset) ∧
    (t.cfg ≠ s.cfg → i = .reset ∨ (∃ v, i = .cfgWr v) ∨ ∃ v, i = .regWr 0 v) ∧
    (t.timeoutDefault ≠ s.timeoutDefault → i = .reset ∨ ∃ v, i = .regWr 4 v) ∧
    (t.carry ≠ s.carry → i = .reset ∨ (∃ c, i = .rxChunk c) ∨ ∃ c, i = .frmUnpack c) ∧
    (t.rxClosed ≠ s.rxClosed → i = .reset ∨ i = .rxClosed) := by
  cases exec_cases h with
  | config _ c hi => rcases hi with ⟨v, rfl⟩ | ⟨v, rfl⟩ <;> simp
  | chunk c _ _ hr _ => simp [hr.params, hr.seq, hr.now, hr.cfg, hr.timeoutDefault, hr.rxClosed]
  | received _ _ _ hr _ => simp [hr.params, hr.seq, hr.now, hr.cfg, hr.timeoutDefault, hr.rxClosed, hr.carry]
  | request => simp [requested]
  | _ => simp

/-! ### The responses -/

theorem StoresResponse.length_le {s : State} {q : SeqNo} {i : Instr} {ft : RespType} {d : Bytes} {m : Nat}
    (h : StoresResponse s q i ft d) (hd : Instr.deliversWithin m s i) : d.length ≤ m := by
  obtain ⟨hchunk, hbody, hstore, hresp⟩ := hd
  cases h with
  | store => exact hstore q ft d rfl
  | ack header => exact hresp q header d (.inl rfl)
  | nack header => exact hresp q header d (.inr rfl)
  | chunk c x _ _ _ hx hlen =>
    have := hchunk c rfl x hx
    omega
  | body _ b _ _ _ hb hlen =>
    have := hbody b hb
    omega

/-- Which operation it was, for an entry of the type stored that holds the payload where that fits. -/
theorem StoresResponse.operation {s : State} {q : SeqNo} {i : Instr} {ft : RespType} {d : Bytes} {e : PendEntry}
    (h : StoresResponse s q i ft d) (hft : e.frameType = ft) (hd : s.WithinMax d → e.data = d) :
    (∃ h d, i = .rxRespAck q h d ∧ e.frameType = .ack ∧ (s.WithinMax d → e.data = d)) ∨
    (∃ h d, i = .rxRespNack q h d ∧ e.frameType = .nack ∧ (s.WithinMax d → e.data = d)) ∨
    (∃ d, i = .pendStore q e.frameType d ∧ (s.WithinMax d → e.data = d)) ∨
    (∃ c, i = .rxChunk c) ∨ Instr.arrivingBody i ≠ none := by
  cases h with
  | ack header => exact .inl ⟨header, d, rfl, hft, hd⟩
  | nack header => exact .inr (.inl ⟨header, d, rfl, hft, hd⟩)
  | store => exact .inr (.inr (.inl ⟨d, by rw [hft], hd⟩))
  | chunk c => exact .inr (.inr (.inr (.inl ⟨c, rfl⟩)))
  | body _ b _ _ _ hb => exact .inr (.inr (.inr (.inr (by simp [hb]))))

theorem exec_pendWithin {i : Instr} {s t : State} {m : Nat} (h : exec i s = .next t) (hs : s.PendWithin m)
    (hm : s.params.maxPayload = some m ∨ Instr.deliversWithin m s i) : t.PendWithin m := by
  intro q e he
  rcases exec_entryOutcome h q with hkept | ⟨hempty, -⟩ | ⟨ft, d, hstores, ht⟩
  · exact hs q e (hkept ▸ he)
  · rw [hempty] at he; cases he
  · rw [ht] at he
    cases he
    rcases hm with hmax | hdeliver
    · exact storedData_withinMax s q d m hmax
    · exact (storedData_length_le s.params q d).trans (hstores.length_le hdeliver)

/-- A new entry of `PEND` was stored there by the operation. -/
theorem exec_newEntry {i : Instr} {s t : State} (h : exec i s = .next t) {q : SeqNo} {e : PendEntry}
    (ht : pendGet t q = some e) (hs : pendGet s q ≠ some e) :
    ∃ d, StoresResponse s q i e.frameType d ∧ e.data = storedData s.params q d := by
  rcases exec_entryOutcome h q with hkept | ⟨hempty, -⟩ | ⟨ft, d, hstores, hnew⟩
  · exact absurd (hkept ▸ ht) hs
  · rw [hempty] at ht; cases ht
  · rw [hnew] at ht
    cases ht
    exact ⟨d, hstores, rfl⟩

theorem exec_emptiedEntry {i : Instr} {s t : State} (h : exec i s = .next t) {q : SeqNo}
    (ht : pendGet t q = none) (hs : pendGet s q ≠ none) : EmptiesEntry s q i := by
  rcases exec_entryOutcome h q with hkept | ⟨-, hempties⟩ | ⟨ft, d, -, hnew⟩
  · exact absurd (hkept ▸ ht) hs
  · exact hempties
  · rw [hnew] at ht; cases ht

theorem exec_busied {i : Instr} {s t : State} (h : exec i s = .next t) {q : SeqNo} (hs : waitGet s q = .idle)
    (ht : waitGet t q ≠ .idle) : q = s.seq + 1 ∧ ∃ d timeout ch rr, i = .sendAck d timeout ch rr := by
  obtain ⟨l, -, ⟨hkept, -⟩ | ⟨-, hidle, -⟩ | ⟨hidle, -⟩ | ⟨-, hrequest⟩⟩ := exec_slotOutcome h q
  · exact absurd (hkept.trans hs) ht
  · exact absurd hidle ht
  · exact absurd hidle ht
  · exact hrequest

/-- Settles O56: `exec_registers` for the registers, `exec_slotOutcome` for the slots, `exec_entryOutcome` for the
entries. -/
theorem writersOfState : Obligations.WritersOfState := by
  intro i s t h
  obtain ⟨hparams, hseq, hnow, hcfg, hdefault, hcarry, hclosed⟩ := exec_registers h
  refine ⟨hparams, hseq, hnow, hcfg, hdefault, hcarry, hclosed, fun q => exec_busied h, fun q e ht hs => ?_,
    fun q => exec_emptiedEntry h, fun m hs hm => ?_⟩
  · obtain ⟨d, hstores, hdata⟩ := exec_newEntry h ht hs
    have hd : s.WithinMax d → e.data = d := fun hmax => hdata.trans (storedData_eq hmax q)
    exact hstores.operation rfl hd
  · have ht := exec_pendWithin h hs hm
    exact ⟨ht, pendBytes_le ht⟩

/-- Settles O57: the cases of `exec_slotOutcome` for a slot that is busy. -/
theorem busyWaiterCompletesOnce : Obligations.BusyWaiterCompletesOnce := by
  intro i s t q t0 timeout h hbusy
  obtain ⟨l, hout, houtcome⟩ := exec_slotOutcome h q
  refine ⟨l, hout, ?_⟩
  rcases houtcome with ⟨hkept, hnone⟩ | ⟨-, hdone⟩ | hreset | ⟨hidle, -⟩
  · exact .inl ⟨hkept.trans hbusy, hnone⟩
  · exact .inr (.inl hdone)
  · exact .inr (.inr hreset)
  · rw [hidle] at hbusy; cases hbusy

/-! ### The closed link -/

theorem exceptBind_ok {ε α β : Type} {x : Except ε α} {f : α → Except ε β} {b : β} (h : (x >>= f) = .ok b) :
    ∃ a, x = .ok a ∧ f a = .ok b := by
  cases x with
  | error e => cases h
  | ok a => exact ⟨a, rfl, h⟩

/-- A command record decodes to the host command of its code (R86). -/
theorem decodeCommand_code {code : Byte} {a : Args} {i : Instr} (h : decodeCommand code a = .ok i) :
    ∃ b, encode i = .cmd code b := by
  have hcode : ∃ c b, encode i = .cmd c b ∧ c.toNat = code.toNat := by
    unfold decodeCommand at h
    split at h
    all_goals rename_i hc
    all_goals try obtain ⟨x, -, h⟩ := exceptBind_ok h
    all_goals try obtain ⟨y, -, h⟩ := exceptBind_ok h
    all_goals cases h
    all_goals exact ⟨_, _, rfl, hc.symm⟩
  obtain ⟨c, b, hb, hc⟩ := hcode
  exact ⟨b, BitVec.eq_of_toNat_eq hc ▸ hb⟩

/-- What an agent presents selects a host command of its code, a chunk, `closed` or a tick (R58). -/
theorem decode_fromAgent {x : Transaction} {i : Instr} (hx : (Input.transaction x).fromAgent = true)
    (h : decode x = .ok i) :
    (∃ code a b, x = .cmd code a ∧ encode i = .cmd code b) ∨ (∃ c, i = .rxChunk c) ∨ i = .rxClosed ∨
      i = .tick := by
  cases x with
  | cmd code a =>
    obtain ⟨b, hb⟩ := decodeCommand_code h
    exact .inl ⟨code, a, b, rfl, hb⟩
  | op identifier a =>
    have hid : (identifier = 0x80 ∨ identifier = 0x81) ∨ identifier = 0xA0 := by simpa [Input.fromAgent] using hx
    rcases hid with (rfl | rfl) | rfl <;> cases h
    · exact .inr (.inl ⟨_, rfl⟩)
    · exact .inr (.inr (.inl rfl))
    · exact .inr (.inr (.inr rfl))
  | rt _ _ => cases hx
  | rsp _ _ _ _ => cases hx

/-- With the link closed the one operation that stores a response is `PEND.STORE` on its own. -/
theorem exec_closed_entry {i : Instr} {s t : State} (hclosed : s.rxClosed = true)
    (hi : ∀ q ft d, i ≠ .pendStore q ft d) (h : exec i s = .next t) (q : SeqNo) :
    pendGet t q = none ∨ pendGet t q = pendGet s q := by
  rcases exec_entryOutcome h q with hkept | ⟨hempty, -⟩ | ⟨ft, d, hstores, -⟩
  · exact .inr hkept
  · exact .inl hempty
  · cases hstores with
    | store => exact absurd rfl (hi q ft d)
    | ack _ _ isOpen => rw [hclosed] at isOpen; cases isOpen
    | nack _ _ isOpen => rw [hclosed] at isOpen; cases isOpen
    | chunk _ _ _ _ isOpen => rw [hclosed] at isOpen; cases isOpen
    | body _ _ _ _ isOpen => rw [hclosed] at isOpen; cases isOpen

theorem exec_closed_stays {i : Instr} {s t : State} (hclosed : s.rxClosed = true) (hi : i ≠ .reset)
    (h : exec i s = .next t) : t.rxClosed = true := by
  by_contra hopen
  have hne : t.rxClosed ≠ s.rxClosed := fun he => hopen (he.trans hclosed)
  obtain ⟨-, -, -, -, -, -, hwriter⟩ := exec_registers h
  rcases hwriter hne with rfl | rfl
  · exact hi rfl
  · cases h
    exact hopen rfl

theorem serve_closed {x : Transaction} {s t : State} (hx : (Input.transaction x).fromAgent = true)
    (hclosed : s.rxClosed = true) (h : serve x s = .next t) :
    (∀ q, pendGet t q = none ∨ pendGet t q = pendGet s q) ∧
      (t.rxClosed = true ∨ ∃ a, x = .cmd 0x6F a) := by
  rcases serve_cases h with ⟨i, hi, hexec⟩ | ⟨_, _, _, -, -, rfl⟩
  · have hagent := decode_fromAgent hx hi
    refine ⟨exec_closed_entry hclosed (fun q ft d hstore => ?_) hexec, ?_⟩
    · subst hstore
      simp [encode] at hagent
    · by_cases hreset : i = .reset
      · subst hreset
        obtain ⟨code, a, rfl, hcode⟩ : ∃ code a, x = .cmd code a ∧ code = 0x6F := by
          simpa [encode, eq_comm] using hagent
        exact .inr ⟨a, by rw [hcode]⟩
      · exact .inl (exec_closed_stays hclosed hreset hexec)
  · exact ⟨fun q => .inr rfl, .inl hclosed⟩

/-- Settles O41: the reset input empties the table, and `serve_closed` covers every transaction of an agent. -/
theorem closedLinkStoresNothing : Obligations.ClosedLinkStoresNothing := by
  refine ⟨fun s => rfl, fun s t x rest hin hagent hclosed h => ?_⟩
  cases x with
  | resetPin =>
    rw [step_resetPin hin] at h
    cases h
    exact ⟨fun q => .inl (pendGet_resetWith s.params q), .inr (.inl rfl)⟩
  | transaction x =>
    rw [step_serve hin] at h
    obtain ⟨hpend, hbit⟩ := serve_closed (s := { s with inbox := rest }) hagent hclosed h
    exact ⟨hpend, hbit.imp_right fun ⟨a, ha⟩ => .inr ⟨a, by rw [ha]; rfl⟩⟩

end Sys2Proof.Machine
end

-- ==== Proofs: the COBS codec ====
section
/-! The COBS encoding holds no terminator and decodes to what was encoded (R101, R105, R107). -/

namespace Sys2Proof.Machine

/-! ### The code byte -/

theorem cobsCode_toNat {block : Bytes} (h : block.length < 254) : (cobsCode block).toNat = block.length + 1 := by
  rw [cobsCode, BitVec.toNat_ofNat]
  omega

/-- A block that is not full has a code other than 0x00 and 0xFF. -/
theorem cobsCode_ne {block : Bytes} (h : block.length < 254) : cobsCode block ≠ 0x00 ∧ cobsCode block ≠ 0xFF := by
  have hval := cobsCode_toNat h
  constructor <;> intro hc <;> rw [hc] at hval
  · simp at hval
  · have : block.length + 1 = 255 := hval.symm
    omega

/-! ### No terminator in an encoding -/

theorem zero_notMem_cobsEncodeFrom {block : Bytes} (hblock : (0x00 : Byte) ∉ block) (hlen : block.length < 254)
    (finalZero : Bool) (p : Bytes) : (0x00 : Byte) ∉ cobsEncodeFrom block finalZero p := by
  have hcode : (0x00 : Byte) ≠ cobsCode block := (cobsCode_ne hlen).1.symm
  induction p generalizing block finalZero with
  | nil =>
    rw [cobsEncodeFrom]
    split
    · exact List.not_mem_cons_of_ne_of_not_mem hcode hblock
    · exact List.not_mem_nil
  | cons b rest ih =>
    rw [cobsEncodeFrom]
    by_cases hb : b = 0x00
    · have hrest := ih (block := []) (by simp) (by simp) true (by decide)
      rw [if_pos hb]
      exact List.not_mem_cons_of_ne_of_not_mem hcode fun h => (List.mem_append.1 h).elim hblock hrest
    · have hext : (0x00 : Byte) ∉ block ++ [b] := by simpa using ⟨hblock, fun h => hb h.symm⟩
      rw [if_neg hb]
      split
      · have hrest := ih (block := []) (by simp) (by simp) false (by decide)
        exact List.not_mem_cons_of_ne_of_not_mem (by decide) fun h => (List.mem_append.1 h).elim hext hrest
      · have hlen' : (block ++ [b]).length < 254 := by simp at *; omega
        exact ih hext hlen' finalZero (cobsCode_ne hlen').1.symm

theorem zero_notMem_cobsEncode (p : Bytes) : (0x00 : Byte) ∉ cobsEncode p :=
  zero_notMem_cobsEncodeFrom (by simp) (by simp) true p

theorem cobsEncodeFrom_ne_nil (block p : Bytes) : cobsEncodeFrom block true p ≠ [] := by
  induction p generalizing block with
  | nil => simp [cobsEncodeFrom]
  | cons b rest ih =>
    rw [cobsEncodeFrom]
    split
    · simp
    · split
      · simp
      · exact ih _

/-! ### Decoding an encoding -/

/-- The data bytes of a block are copied. -/
theorem cobsDecodeFrom_append (zeroDue : Bool) (block : Bytes) {rest out : Bytes}
    (h : cobsDecodeFrom zeroDue 0 rest = .ok out) :
    cobsDecodeFrom zeroDue block.length (block ++ rest) = .ok (block ++ out) := by
  induction block with
  | nil => exact h
  | cons b block ih =>
    show cobsDecodeFrom zeroDue (block.length + 1) (b :: (block ++ rest)) = _
    rw [cobsDecodeFrom, ih]
    rfl

/-- One block: the zero that was owed, the block's data, and what follows it. -/
theorem cobsDecodeFrom_block (zeroDue : Bool) {code : Byte} {block rest out : Bytes}
    (hcode : code.toNat = block.length + 1) (h : cobsDecodeFrom (code != 0xFF) 0 rest = .ok out) :
    cobsDecodeFrom zeroDue 0 (code :: (block ++ rest)) =
      .ok (if zeroDue then 0x00 :: (block ++ out) else block ++ out) := by
  have hneed : code.toNat - 1 = block.length := by omega
  rw [cobsDecodeFrom, hneed, cobsDecodeFrom_append _ _ h]

/-- The decoder at a block boundary undoes the encoder, and adds the zero owed by the block before. -/
theorem cobsDecodeFrom_cobsEncodeFrom {block : Bytes} (hlen : block.length < 254) {finalZero zeroDue : Bool}
    (hdue : zeroDue = true → finalZero = true) (p : Bytes) :
    cobsDecodeFrom zeroDue 0 (cobsEncodeFrom block finalZero p) =
      .ok (if zeroDue then 0x00 :: (block ++ p) else block ++ p) := by
  have hcode := cobsCode_toNat hlen
  have hne : (cobsCode block != 0xFF) = true := bne_iff_ne.2 (cobsCode_ne hlen).2
  induction p generalizing block finalZero zeroDue with
  | nil =>
    rw [cobsEncodeFrom]
    split
    · have hblock := cobsDecodeFrom_block zeroDue (rest := []) (out := []) hcode rfl
      simpa using hblock
    · rename_i hnone
      obtain ⟨hempty, hfinal⟩ : block = [] ∧ finalZero = false := by simpa using hnone
      have hdue' : zeroDue = false := by simpa [hfinal] using hdue
      simp [hempty, hdue', cobsDecodeFrom]
  | cons b rest ih =>
    rw [cobsEncodeFrom]
    by_cases hb : b = 0x00
    · have hrest := ih (block := []) (by simp) (finalZero := true) (zeroDue := true) (by simp) rfl rfl
      rw [if_pos hb, cobsDecodeFrom_block zeroDue hcode (by rw [hne]; exact hrest), hb]
      rfl
    · rw [if_neg hb]
      split
      · rename_i hfull
        have hrest := ih (block := []) (by simp) (finalZero := false) (zeroDue := false) (by simp) rfl rfl
        have hff : ((0xFF : Byte)).toNat = (block ++ [b]).length + 1 := by rw [hfull]; rfl
        rw [cobsDecodeFrom_block zeroDue hff hrest]
        simp
      · have hlen' : (block ++ [b]).length < 254 := by simp at *; omega
        rw [ih hlen' hdue (cobsCode_toNat hlen') (bne_iff_ne.2 (cobsCode_ne hlen').2)]
        simp

theorem cobsDecode_eq {s : Bytes} (hzero : (0x00 : Byte) ∉ s) (hne : s ≠ []) :
    cobsDecode s = cobsDecodeFrom false 0 s := by
  have hcontains : s.contains 0x00 = false := by simpa using hzero
  cases s with
  | nil => exact absurd rfl hne
  | cons code rest =>
    rw [cobsDecode, if_neg (by rw [hcontains]; exact Bool.false_ne_true), cobsDecodeFrom]
    cases cobsDecodeFrom (code != 0xFF) (code.toNat - 1) rest <;> rfl

/-- `CobsDecode(CobsEncode(p)) = p` (R107). -/
theorem cobsDecode_cobsEncode (p : Bytes) : cobsDecode (cobsEncode p) = .ok p := by
  rw [cobsDecode_eq (zero_notMem_cobsEncode p) (cobsEncodeFrom_ne_nil [] p)]
  exact cobsDecodeFrom_cobsEncodeFrom (block := []) (by simp) (by simp) p

/-- The frame of a packet, received with nothing carried over, is that packet as one candidate (R110, R111). -/
theorem frameUnpack_frame (p : Bytes) : frameUnpack [] (cobsEncode p ++ [0x00]) = ([.ok p], []) := by
  have hcut : cutSegments [] ([] ++ (cobsEncode p ++ [0x00])) = ([cobsEncode p], []) :=
    cutSegments_terminated [] (zero_notMem_cobsEncode p)
  simp only [frameUnpack, hcut, List.map_cons, List.map_nil, segmentResult, cobsDecode_cobsEncode]

end Sys2Proof.Machine
end

-- ==== Proofs: a chunk with framing off ====
section
/-! With framing off a chunk is processed whole, as the candidate of its frame is with framing on (R208, R212). -/

namespace Sys2Proof.Machine

/-! ### One candidate, by its outcome -/

section
variable {s : State} {raw body x : Bytes} {e : Err}

theorem processCandidate_badChecksum (heff : verifyEff s.cfg = true) {reason : ChecksumReason}
    (h : verUnpack x = .error reason) : processCandidate x s = discard (.checksum reason) x s := by
  rw [processCandidate, if_pos heff, h]

theorem processCandidate_verified (heff : verifyEff s.cfg = true) (h : verUnpack x = .ok body) :
    processCandidate x s = receiveBody x body s := by
  rw [processCandidate, if_pos heff, h]

theorem processCandidate_unverified (heff : verifyEff s.cfg = false) :
    processCandidate x s = receiveBody x x s := by
  rw [processCandidate, if_neg (by simp [heff])]

theorem receiveBody_below (hmode : s.cfg.relMode = .below) :
    receiveBody raw body s = receiveReliability raw none body s := by
  rw [receiveBody, hmode]

theorem receiveBody_packet (hmode : s.cfg.relMode = .off) {h : RtHeader} {p : Bytes}
    (hunpack : rtUnpack s.params.protocolVersion body = .ok (h, p)) :
    receiveBody raw body s = emit (.event (.packet h p)) s := by
  rw [receiveBody, hmode]
  simp only [hunpack]

theorem receiveBody_above (hmode : s.cfg.relMode = .above) {h : RtHeader} {rest : Bytes}
    (hunpack : rtUnpack s.params.protocolVersion body = .ok (h, rest)) :
    receiveBody raw body s = receiveReliability raw (some h) rest s := by
  rw [receiveBody, hmode]
  simp only [hunpack]

theorem receiveBody_badRouting (hmode : s.cfg.relMode ≠ .below)
    (hunpack : rtUnpack s.params.protocolVersion body = .error e) : receiveBody raw body s = discard e raw s := by
  rw [receiveBody]
  split
  · simp only [hunpack]
  · rename_i hbelow
    exact absurd hbelow hmode
  · simp only [hunpack]

theorem receiveReliability_bad {h : Option RtHeader} (hunpack : rspUnpack body = .error e) :
    receiveReliability raw h body s = discard e raw s := by
  rw [receiveReliability, hunpack]

theorem receiveReliability_dispatch {h : Option RtHeader} {r : RspParts} (hunpack : rspUnpack body = .ok r) :
    receiveReliability raw h body s = dispatch r.frameType r.sequence h r.data s := by
  rw [receiveReliability, hunpack]

end

/-! ### The same block with framing on -/

/-- The block with `FRAMING_EN = 1`. -/
def State.withFraming (s : State) : State := { s with cfg := { s.cfg with framingEn := true } }

/-- From `s` with framing off to `t` with the outputs `l`, and with framing on to `u`: the same writes, and the same
outputs but for the framing of what goes to the link. -/
def FramedTwin (l : List Output) (s t u : State) : Prop :=
  t = { s with pend := u.pend, answers := u.answers, freeAnswers := u.freeAnswers, out := s.out ++ l } ∧
    u.out = s.out ++ l.map Output.framed

theorem framedTwin_emit {o : Output} (h : o.framed = o) (s : State) :
    FramedTwin [o] s (emit o s) (emit o s.withFraming) :=
  ⟨rfl, by rw [List.map_singleton, h]; rfl⟩

theorem framedTwin_discard (e : Err) (raw : Bytes) (s : State) :
    FramedTwin [.event (.discard e raw)] s (discard e raw s) (discard e raw s.withFraming) :=
  framedTwin_emit rfl s

theorem takeAnswer_withFraming (s : State) : (takeAnswer s.withFraming).1 = (takeAnswer s).1 := by
  unfold takeAnswer State.withFraming
  cases s.answers <;> rfl

/-- The body of the response to a request, from the handler's answer (R180). -/
def responseBody (s : State) (q : SeqNo) (header : Option RtHeader) : Bytes :=
  relBody s.params.protocolVersion (replyRoute header) q (if (takeAnswer s).1.ok then .respAck else .respNack)
    (takeAnswer s).1.data

theorem responseBody_withFraming (s : State) (q : SeqNo) (header : Option RtHeader) :
    responseBody s.withFraming q header = responseBody s q header := by
  rw [responseBody, takeAnswer_withFraming]
  rfl

/-- `RX.DATA_ACK`: the handler transaction, then the response. -/
theorem onDataAck_eq (q : SeqNo) (header : Option RtHeader) (d : Bytes) (s : State) :
    onDataAck q header d s =
      { s with answers := s.answers.tail
               freeAnswers := if s.answers = [] then s.freeAnswers + 1 else s.freeAnswers
               out := s.out ++ [.handler ⟨q, .dataAck, header, d⟩ (takeAnswer s).1,
                                .link (wireOf s.cfg (responseBody s q header))] } := by
  simp [onDataAck, handler_eq, relSend, txUnit, linkWrite, emit, responseBody]

theorem wireOf_withFraming {s : State} (h : s.cfg.framingEn = false) (body : Bytes) :
    wireOf s.withFraming.cfg body = cobsEncode (wireOf s.cfg body) ++ [0x00] := by
  simp only [wireOf, h]
  rfl

theorem framedTwin_dispatch {s : State} (h : s.cfg.framingEn = false) (ft : FrameType) (q : SeqNo)
    (header : Option RtHeader) (d : Bytes) :
    ∃ l, FramedTwin l s (dispatch ft q header d s) (dispatch ft q header d s.withFraming) := by
  cases ft with
  | dataAck =>
    refine ⟨[.handler ⟨q, .dataAck, header, d⟩ (takeAnswer s).1,
      .link (wireOf s.cfg (responseBody s q header))], ?_⟩
    simp only [dispatch, onDataAck_eq, takeAnswer_withFraming, responseBody_withFraming, wireOf_withFraming h]
    exact ⟨rfl, rfl⟩
  | dataNoack =>
    refine ⟨[.handler ⟨q, .dataNoack, header, d⟩ (takeAnswer s).1], ?_⟩
    simp only [dispatch, onDataNoack, handler_eq, takeAnswer_withFraming]
    exact ⟨rfl, rfl⟩
  | respAck => exact ⟨[], by simp [FramedTwin, dispatch, onRespAck, pendStore, pendSet, State.withFraming]⟩
  | respNack => exact ⟨[], by simp [FramedTwin, dispatch, onRespNack, pendStore, pendSet, State.withFraming]⟩

theorem framedTwin_reliability {s : State} (h : s.cfg.framingEn = false) (raw : Bytes) (header : Option RtHeader)
    (body : Bytes) :
    ∃ l, FramedTwin l s (receiveReliability raw header body s)
      (receiveReliability raw header body s.withFraming) := by
  cases hunpack : rspUnpack body with
  | error e =>
    rw [receiveReliability_bad hunpack, receiveReliability_bad hunpack]
    exact ⟨_, framedTwin_discard e raw s⟩
  | ok r =>
    rw [receiveReliability_dispatch hunpack, receiveReliability_dispatch hunpack]
    exact framedTwin_dispatch h _ _ _ _

/-- The twin of one body; without a reliability header there is one event (R210). -/
theorem framedTwin_body {s : State} (h : s.cfg.framingEn = false) (raw body : Bytes) :
    ∃ l, FramedTwin l s (receiveBody raw body s) (receiveBody raw body s.withFraming) ∧
      (s.cfg.relMode = .off → ∃ e, l = [.event e]) := by
  cases hmode : s.cfg.relMode with
  | below =>
    have hmode' : s.withFraming.cfg.relMode = .below := hmode
    rw [receiveBody_below hmode, receiveBody_below hmode']
    obtain ⟨l, hl⟩ := framedTwin_reliability h raw none body
    exact ⟨l, hl, by simp⟩
  | off =>
    have hmode' : s.withFraming.cfg.relMode = .off := hmode
    cases hunpack : rtUnpack s.params.protocolVersion body with
    | error e =>
      have hbad : s.cfg.relMode ≠ .below := by simp [hmode]
      rw [receiveBody_badRouting hbad hunpack, receiveBody_badRouting (s := s.withFraming) hbad hunpack]
      exact ⟨_, framedTwin_discard e raw s, fun _ => ⟨_, rfl⟩⟩
    | ok parts =>
      rw [receiveBody_packet hmode hunpack, receiveBody_packet hmode' hunpack]
      exact ⟨_, framedTwin_emit rfl s, fun _ => ⟨_, rfl⟩⟩
  | above =>
    have hmode' : s.withFraming.cfg.relMode = .above := hmode
    cases hunpack : rtUnpack s.params.protocolVersion body with
    | error e =>
      have hbad : s.cfg.relMode ≠ .below := by simp [hmode]
      rw [receiveBody_badRouting hbad hunpack, receiveBody_badRouting (s := s.withFraming) hbad hunpack]
      exact ⟨_, framedTwin_discard e raw s, by simp⟩
    | ok parts =>
      rw [receiveBody_above hmode hunpack, receiveBody_above hmode' hunpack]
      obtain ⟨l, hl⟩ := framedTwin_reliability h raw (some parts.1) parts.2
      exact ⟨l, hl, by simp⟩

theorem framedTwin_candidate {s : State} (h : s.cfg.framingEn = false) (x : Bytes) :
    ∃ l, FramedTwin l s (processCandidate x s) (processCandidate x s.withFraming) ∧
      (s.cfg.relMode = .off → ∃ e, l = [.event e]) := by
  cases heff : verifyEff s.cfg with
  | false =>
    have heff' : verifyEff s.withFraming.cfg = false := heff
    rw [processCandidate_unverified heff, processCandidate_unverified heff']
    exact framedTwin_body h x x
  | true =>
    have heff' : verifyEff s.withFraming.cfg = true := heff
    cases hver : verUnpack x with
    | error reason =>
      rw [processCandidate_badChecksum heff hver, processCandidate_badChecksum heff' hver]
      exact ⟨_, framedTwin_discard _ x s, fun _ => ⟨_, rfl⟩⟩
    | ok body =>
      rw [processCandidate_verified heff hver, processCandidate_verified heff' hver]
      exact framedTwin_body h x body

/-- With framing on and nothing carried over, the frame of a packet is processed as that packet. -/
theorem exec_rxChunk_frame {s : State} (hopen : s.rxClosed = false) (chunk : Bytes) :
    exec (.rxChunk (cobsEncode chunk ++ [0x00])) { s.withFraming with carry := [] } =
      .next { processCandidate chunk s.withFraming with carry := [] } := by
  have hrest : afterLastZero ([] ++ (cobsEncode chunk ++ [0x00])) = [] := by
    rw [← frameUnpack_carry, frameUnpack_frame]
  have hexec := exec_rxChunk_framed (s := { s.withFraming with carry := [] }) (chunk := cobsEncode chunk ++ [0x00])
    hopen rfl (by rw [hrest]; simp [State.WithinCap])
  rw [hexec, frameUnpack_frame, ← processCandidate_carry]
  rfl

/-! ### The empty packet -/

theorem processCandidate_nil (s : State) :
    processCandidate [] s = s.emitting [.event (.discard
      (if s.cfg.verifyEn = true ∨ s.cfg.relMode ≠ .off then .checksum .short
        else .malformed .shortHeader) [])] := by
  cases heff : verifyEff s.cfg with
  | true =>
    have hon : s.cfg.verifyEn = true ∨ s.cfg.relMode ≠ .off := by simpa [verifyEff] using heff
    rw [processCandidate_badChecksum heff (show verUnpack [] = .error .short from rfl), if_pos hon]
    rfl
  | false =>
    obtain ⟨hver, hmode⟩ : s.cfg.verifyEn = false ∧ s.cfg.relMode = .off := by simpa [verifyEff] using heff
    rw [processCandidate_unverified heff, receiveBody_badRouting (by simp [hmode]) rfl, if_neg (by simp [hver, hmode])]
    rfl

/-- Settles O39: the chunk is one candidate, whose processing does not see `CARRY` and differs from that of the framed
block in the framing of its link writes. -/
theorem rxChunkUnframed : Obligations.RxChunkUnframed := by
  refine ⟨fun chunk carry s hopen hframing => ?_, fun chunk s hopen hframing => ?_, fun s hopen hframing => ?_⟩
  · refine ⟨_, exec_rxChunk_unframed hopen hframing chunk, (received_candidate chunk s).carry, ?_⟩
    rw [exec_rxChunk_unframed (s := { s with carry := carry }) hopen hframing, processCandidate_carry]
  · obtain ⟨l, ⟨ht, hout⟩, hevent⟩ := framedTwin_candidate hframing chunk
    exact ⟨_, _, l, _, exec_rxChunk_unframed hopen hframing chunk, exec_rxChunk_frame hopen chunk, ht, hout, rfl,
      hevent⟩
  · rw [exec_rxChunk_unframed hopen hframing, processCandidate_nil]

end Sys2Proof.Machine
end

-- ==== Proofs: the outputs of a step ====
section
/-! A step runs the operation its transaction decodes to and only adds outputs; a command adds one result, as its last
output (R51, R58 to R61, R236, R240, R262). -/

namespace Sys2Proof.Machine

/-- Settles O4: `step_serve`, then `serve_ok`; `step_idle` with nothing presented. -/
theorem stepRunsTheDecodedOperation : Obligations.StepRunsTheDecodedOperation :=
  ⟨fun s _ rest _ hin hdecode => (step_serve hin).trans (serve_ok hdecode { s with inbox := rest }), fun _ => step_idle⟩

/-! ### Added outputs -/

/-- From `s` to `t` outputs are only added, at the end, and `P` holds of each new one (R59). -/
def AddsOutputs (P : Output → Prop) (s t : State) : Prop := ∃ l : List Output, t.out = s.out ++ l ∧ ∀ o ∈ l, P o

section
variable {P : Output → Prop} {s t u : State}

theorem addsOutputs_of_out_eq (h : t.out = s.out) : AddsOutputs P s t := ⟨[], by simp [h], by simp⟩

theorem AddsOutputs.trans (h : AddsOutputs P s t) (k : AddsOutputs P t u) : AddsOutputs P s u := by
  obtain ⟨l, hl, hP⟩ := h
  obtain ⟨m, hm, hQ⟩ := k
  exact ⟨l ++ m, by simp [hm, hl], fun o ho => (List.mem_append.1 ho).elim (hP o) (hQ o)⟩

theorem addsOutputs_emitting {l : List Output} (h : ∀ o ∈ l, P o) (s : State) : AddsOutputs P s (s.emitting l) :=
  ⟨l, rfl, h⟩

theorem addsOutputs_emit {o : Output} (h : P o) (s : State) : AddsOutputs P s (emit o s) :=
  addsOutputs_emitting (by simpa using h) s

theorem AddsOutputs.emitting (h : AddsOutputs P s t) {l : List Output} (hl : ∀ o ∈ l, P o) :
    AddsOutputs P s (t.emitting l) :=
  h.trans (addsOutputs_emitting hl t)

/-- A poll adds nothing but one of the two `DONE` events (R175). -/
theorem waitPoll_addsOutputs {q : SeqNo} (hresponse : ∀ e, P (doneResponse q e)) (htimeout : P (doneTimeout q))
    (t0 timeout : Ticks) (s : State) : AddsOutputs P s (waitPoll q t0 timeout s) := by
  cases he : pendGet s q with
  | some e =>
    rw [waitPoll_response he]
    exact ⟨[doneResponse q e], rfl, by simpa using hresponse e⟩
  | none =>
    rcases Nat.lt_or_ge (s.now - t0).toNat timeout.toNat with hlt | hge
    · rw [waitPoll_waiting he hlt]
      exact addsOutputs_of_out_eq rfl
    · rw [waitPoll_timeout he hge]
      exact ⟨[doneTimeout q], rfl, by simpa using htimeout⟩

theorem tickEvent_eq_some {now : Ticks} {q : SeqNo} {w : Waiter} {e : Option PendEntry} {o : Output}
    (h : tickEvent now q w e = some o) : (∃ x, o = doneResponse q x) ∨ o = doneTimeout q := by
  cases w with
  | idle => cases h
  | busy t0 timeout =>
    simp only [tickEvent] at h
    split at h
    · cases h
    · cases e with
      | some x => cases h; exact .inl ⟨x, rfl⟩
      | none =>
        dsimp only at h
        split at h <;> cases h
        exact .inr rfl

theorem tickOnce_addsOutputs (hresponse : ∀ q e, P (doneResponse q e)) (htimeout : ∀ q, P (doneTimeout q))
    (s : State) : AddsOutputs P s (tickOnce s) := by
  refine ⟨_, tickOnce_out s, fun o ho => ?_⟩
  obtain ⟨q, -, hq⟩ := List.mem_filterMap.1 ho
  rcases tickEvent_eq_some hq with ⟨e, rfl⟩ | rfl
  · exact hresponse q e
  · exact htimeout q

theorem Received.addsOutputs (h : Received s t) (hP : ∀ o : Output, o.ofReceive = true → P o) :
    AddsOutputs P s t := by
  obtain ⟨l, ht, hl, -⟩ := h
  exact ⟨l, by rw [ht], fun o ho => hP o (hl o ho)⟩

/-- What an accepted request adds: its frame, and what its first poll adds. -/
theorem request_addsOutputs (hlink : ∀ b, P (.link b)) (hresponse : ∀ q e, P (doneResponse q e))
    (htimeout : ∀ q, P (doneTimeout q)) (route : Route) (data : Bytes) (T : Ticks) (s : State) :
    AddsOutputs P s (waitPoll (s.seq + 1) s.now T (requested route data T s)) := by
  have hsent : AddsOutputs P s (requested route data T s) := ⟨[.link _], rfl, by simpa using hlink _⟩
  exact hsent.trans (waitPoll_addsOutputs (hresponse _) (htimeout _) _ _ _)

end

/-! ### No `TransportError` -/

@[simp] theorem err_link (b : Bytes) : (Output.link b).err = none := rfl
@[simp] theorem err_handler (q : HandlerRequest) (a : Answer) : (Output.handler q a).err = none := rfl
@[simp] theorem err_returned (r : Returned) : (Output.returned r).err = none := rfl
@[simp] theorem err_result_ok (f : Fields) : (Output.result .ok f).err = none := rfl
@[simp] theorem err_result_error (e : Err) (f : Fields) : (Output.result (.error e) f).err = some e := rfl
@[simp] theorem err_packet (h : RtHeader) (p : Bytes) : (Output.event (.packet h p)).err = none := rfl
@[simp] theorem err_discard (e : Err) (raw : Bytes) : (Output.event (.discard e raw)).err = some e := rfl
@[simp] theorem err_doneResponse (q : SeqNo) (e : PendEntry) : (doneResponse q e).err = none := rfl
@[simp] theorem err_doneTimeout (q : SeqNo) : (doneTimeout q).err = some .timeout := rfl

/-- The output carries no `TransportError`. -/
def Output.NoTransport (o : Output) : Prop := o.err ≠ some .transport

theorem noTransport_of_err_none {o : Output} (h : o.err = none) : o.NoTransport := fun ht => by
  rw [h] at ht
  cases ht

theorem noTransport_of_ofCommand {o : Output} (h : o.ofCommand = true) : o.NoTransport := by
  cases o with
  | result st f =>
    cases st with
    | ok => exact noTransport_of_err_none (err_result_ok f)
    | error e =>
      intro he
      obtain rfl : e = .transport := Option.some.inj he
      cases h
  | link b => exact noTransport_of_err_none (err_link b)
  | returned r => exact noTransport_of_err_none (err_returned r)
  | event e | handler q a => cases h

theorem noTransport_of_ofReceive {o : Output} (h : o.ofReceive = true) : o.NoTransport := by
  cases o with
  | event e =>
    cases e with
    | packet hd p => exact noTransport_of_err_none (err_packet hd p)
    | discard e raw =>
      intro he
      obtain rfl : e = .transport := Option.some.inj he
      cases h
    | done q st ok d => cases h
  | link b => exact noTransport_of_err_none (err_link b)
  | handler q a => exact noTransport_of_err_none (err_handler q a)
  | result st f | returned r => cases h

theorem noTransport_doneResponse (q : SeqNo) (e : PendEntry) : (doneResponse q e).NoTransport :=
  noTransport_of_err_none (err_doneResponse q e)

theorem noTransport_doneTimeout (q : SeqNo) : (doneTimeout q).NoTransport := by
  simp [Output.NoTransport]

/-- Every operation only adds outputs, none with `TransportError` (R236). -/
theorem exec_addsOutputs {i : Instr} {s t : State} (h : exec i s = .next t) :
    AddsOutputs Output.NoTransport s t := by
  cases exec_cases h with
  | outputs _ l hl => exact addsOutputs_emitting (fun o ho => noTransport_of_ofCommand (hl o ho)) s
  | request d timeout ch rr route _ _ =>
    have hpolled := request_addsOutputs (fun b => noTransport_of_err_none (err_link b))
      noTransport_doneResponse noTransport_doneTimeout route d (BitVec.ofNat 32 (timeoutOf timeout s.timeoutDefault)) s
    exact hpolled.emitting (by simp [Output.NoTransport])
  | chunk c _ _ hr _ =>
    exact Received.addsOutputs (s := { s with carry := (frameUnpack s.carry c).2 }) hr
      fun o => noTransport_of_ofReceive
  | received _ _ _ hr _ => exact hr.addsOutputs fun o => noTransport_of_ofReceive
  | pending _ q e l _ hl => exact ⟨l, rfl, fun o ho => noTransport_of_ofCommand (hl o ho)⟩
  | tick => exact tickOnce_addsOutputs noTransport_doneResponse noTransport_doneTimeout s
  | poll q t0 timeout _ => exact waitPoll_addsOutputs (noTransport_doneResponse q) (noTransport_doneTimeout q) t0 timeout s
  | closed => exact addsOutputs_of_out_eq rfl
  | config | timeout | reset | segments | sequence => exact ⟨[_], rfl, by simp [Output.NoTransport]⟩

theorem serve_addsOutputs {x : Transaction} {s t : State} (h : serve x s = .next t) :
    AddsOutputs Output.NoTransport s t := by
  rcases serve_cases h with ⟨i, -, hexec⟩ | ⟨_, _, e, -, -, rfl⟩
  · exact exec_addsOutputs hexec
  · exact addsOutputs_emit (by cases e <;> simp [Output.NoTransport, commandError]) s

/-- Settles O8: reset recalls no output, and `serve_addsOutputs` covers every transaction. -/
theorem outputsAreOnlyAdded : Obligations.OutputsAreOnlyAdded := by
  intro s t h
  match hin : s.inbox with
  | [] =>
    rw [step_idle hin] at h
    cases h
    exact addsOutputs_of_out_eq rfl
  | .resetPin :: rest =>
    rw [step_resetPin hin] at h
    cases h
    exact addsOutputs_of_out_eq rfl
  | .transaction x :: rest =>
    rw [step_serve hin] at h
    exact serve_addsOutputs (s := { s with inbox := rest }) h

/-! ### One result -/

/-- The output is no result on `HCMD`. -/
def Output.NoResult (o : Output) : Prop := ∀ st f, o ≠ .result st f

theorem noResult_link (b : Bytes) : (Output.link b).NoResult := by simp [Output.NoResult]

theorem noResult_doneResponse (q : SeqNo) (e : PendEntry) : (doneResponse q e).NoResult := by
  simp [Output.NoResult, doneResponse]

theorem noResult_doneTimeout (q : SeqNo) : (doneTimeout q).NoResult := by simp [Output.NoResult, doneTimeout]

/-- The command answers a next state, and one result as its last output; where that is an error, nothing else happened
(R51, R240). -/
def ReturnsOneResult (s : State) (r : Result) : Prop :=
  ∃ (t : State) (l : List Output) (st : Status) (f : Fields),
    r = .next t ∧ t.out = s.out ++ l ++ [.result st f] ∧ (∀ o ∈ l, o.NoResult) ∧
    (∀ e, st = .error e → f = .none ∧ t = s.emitting [.result (.error e) .none])

theorem returnsOneResult_fail (e : Err) (s : State) : ReturnsOneResult s (.next (fail e s)) :=
  ⟨_, [], .error e, .none, rfl, by simp, by simp, fun _ he => by cases he; exact ⟨rfl, rfl⟩⟩

theorem AddsOutputs.returnsOneResult {s t : State} (h : AddsOutputs Output.NoResult s t) (f : Fields) :
    ReturnsOneResult s (.next (reply f t)) := by
  obtain ⟨l, ht, hl⟩ := h
  exact ⟨_, l, .ok, f, rfl, by rw [reply_out, ht], hl, fun _ he => by cases he⟩

theorem returnsOneResult_reply (f : Fields) (s : State) : ReturnsOneResult s (.next (reply f s)) :=
  (addsOutputs_of_out_eq rfl).returnsOneResult f

/-- A command that writes the registers or the tables and outputs its result alone. -/
theorem returnsOneResult_write {s t : State} (h : t.out = s.out) : ReturnsOneResult s (.next (reply .none t)) :=
  (addsOutputs_of_out_eq h).returnsOneResult .none

theorem returnsOneResult_withPayload {s run : State} (h : ReturnsOneResult s (.next run)) (b : Bytes) :
    ReturnsOneResult s (withPayload b s run) := by
  rcases withPayload_cases b s run with hrun | hrefused
  · rw [hrun]; exact h
  · rw [hrefused]; exact returnsOneResult_fail _ s

theorem returnsOneResult_writeCfg (v : BitVec 8) (s : State) : ReturnsOneResult s (.next (writeCfg v s)) := by
  unfold writeCfg
  split
  · exact returnsOneResult_fail _ s
  · exact returnsOneResult_write rfl

theorem returnsOneResult_issueRequest (route : Route) (data : Bytes) (T : Ticks) (s : State) :
    ReturnsOneResult s (.next (issueRequest route data T s)) :=
  (request_addsOutputs noResult_link noResult_doneResponse noResult_doneTimeout route data T s).returnsOneResult
    (.sequence (s.seq + 1))

/-- Every operation that is a host command returns one result. -/
theorem exec_command_returnsOneResult {i : Instr} {code : Byte} {a : Args} (h : encode i = .cmd code a) (s : State) :
    ReturnsOneResult s (exec i s) := by
  cases i with
  | nop => exact returnsOneResult_reply _ s
  | cobsEnc p | frmPack p | crcGen p | verPack p => exact returnsOneResult_withPayload (returnsOneResult_reply _ s) p
  | cobsDec p | verUnpack p | rtPack p ch rr | rtUnpack p | rspPack q ft p | rspUnpack p =>
    refine returnsOneResult_withPayload ?_ p
    split
    · exact returnsOneResult_reply _ s
    · exact returnsOneResult_fail _ s
  | sendNoack d ch rr =>
    refine returnsOneResult_withPayload ?_ d
    split
    · exact returnsOneResult_fail _ s
    · exact (addsOutputs_emit (noResult_link _) s).returnsOneResult _
  | sendAck d timeout ch rr =>
    refine returnsOneResult_withPayload ?_ d
    split
    · exact returnsOneResult_fail _ s
    · split
      · exact returnsOneResult_fail _ s
      · split
        · exact returnsOneResult_fail _ s
        · exact returnsOneResult_issueRequest _ d _ s
  | txPlain ch rr p =>
    refine returnsOneResult_withPayload ?_ p
    split
    · exact returnsOneResult_fail _ s
    · split
      · exact returnsOneResult_fail _ s
      · exact (addsOutputs_emit (noResult_link _) s).returnsOneResult _
  | cfgWr v => exact returnsOneResult_writeCfg v s
  | regRd n =>
    cases hread : regRead s n with
    | some v => rw [exec_regRd_some hread]; exact returnsOneResult_reply _ s
    | none => rw [exec_regRd_none hread]; exact returnsOneResult_fail _ s
  | regWr n v =>
    by_cases hn : n = 4
    · subst hn
      rw [exec_regWr_timeout]
      split
      · exact returnsOneResult_write rfl
      · exact returnsOneResult_fail _ s
    · show ReturnsOneResult s (execRegWr n v s)
      rw [execRegWr_other hn]
      split
      · exact returnsOneResult_fail _ s
      · split
        · exact returnsOneResult_writeCfg _ s
        · split <;> exact returnsOneResult_fail _ s
  | reset => exact returnsOneResult_write (resetBlock_out s)
  | _ => cases h

theorem serve_command_returnsOneResult (code : Byte) (a : Args) (s : State) :
    ReturnsOneResult s (serve (.cmd code a) s) := by
  cases hdecode : decodeCommand code a with
  | error e =>
    rw [serve_badCommand hdecode]
    exact returnsOneResult_fail _ s
  | ok i =>
    obtain ⟨b, hb⟩ := decodeCommand_code hdecode
    rw [serve_ok (show decode (.cmd code a) = .ok i from hdecode)]
    exact exec_command_returnsOneResult hb s

/-- Settles O7: a record that selects no command is answered by `fail`, any other by one of the eighteen commands. -/
theorem commandReturnsOneResult : Obligations.CommandReturnsOneResult := by
  intro s code a rest hin
  rw [step_serve hin]
  exact serve_command_returnsOneResult code a { s with inbox := rest }

end Sys2Proof.Machine
end

-- ==== Proofs: requests received from the link ====
section
/-! `RX.DATA_ACK` and `RX.DATA_NOACK`: the handler transaction, and the frame of the response (R57, R180, R181, R202 to
R206). -/

namespace Sys2Proof.Machine

/-! ### Reliability frames on the wire -/

/-- Where a reliability header is used the checksum is too (R27). -/
theorem verifyEff_of_reliable {c : Cfg} (h : c.relMode ≠ .off) : verifyEff c = true := by
  simp [verifyEff, h]

theorem wireOf_reliable {s : State} (h : s.cfg.relMode ≠ .off) (body : Bytes) :
    wireOf s.cfg body = checkedFrame s body := by
  simp only [wireOf, unitOf, if_pos (verifyEff_of_reliable h)]
  rfl

theorem packRtHeader_own (s : State) (ch : BitVec 4) (rr : BitVec 1) :
    packRtHeader (ownRtHeader s.params.protocolVersion ch rr) = routingByte s ch rr := by
  unfold routingByte
  generalize s.params.protocolVersion = v
  revert v ch rr
  decide

/-- The channel and flag a placement puts in front of the reliability header. -/
def Route.lane : Route → Option (BitVec 4 × BitVec 1)
  | .below => none
  | .above ch rr => some (ch, rr)

theorem lane_replyRoute (header : Option RtHeader) :
    (replyRoute header).lane = header.map fun x : RtHeader => (x.channel, x.requestResponse) := by
  cases header <;> rfl

theorem wireOf_relBody {s : State} (h : s.cfg.relMode ≠ .off) (route : Route) (q : SeqNo) (ft : FrameType)
    (d : Bytes) :
    wireOf s.cfg (relBody s.params.protocolVersion route q ft d) =
      relFrame s route.lane q (packRspByte (frameTypeCode ft) 0) d := by
  rw [wireOf_reliable h]
  cases route with
  | below => rfl
  | above ch rr => rw [relBody, rtFrame, packRtHeader_own]; rfl

/-! ### The two operations -/

theorem headerFits_eq_true {mode : RelMode} {header : Option RtHeader}
    (h : (mode = .below ∧ header = none) ∨ (mode = .above ∧ header ≠ none)) : headerFits mode header = true := by
  rcases h with ⟨rfl, rfl⟩ | ⟨rfl, hsome⟩
  · rfl
  · simpa [headerFits] using Option.isSome_iff_ne_none.2 hsome

theorem whileReliable_started {s : State} {header : Option RtHeader} (hopen : s.rxClosed = false)
    (h : (s.cfg.relMode = .below ∧ header = none) ∨ (s.cfg.relMode = .above ∧ header ≠ none)) (run : State) :
    whileReliable header s run = .next run := by
  rw [whileReliable, whileOpen_open hopen, if_pos (headerFits_eq_true h)]

/-- The response to a request is a reliability frame on the request's channel (R180). -/
theorem wireOf_responseBody {s : State} (h : s.cfg.relMode ≠ .off) (q : SeqNo) (header : Option RtHeader) :
    wireOf s.cfg (responseBody s q header) =
      relFrame s (header.map fun x : RtHeader => (x.channel, x.requestResponse)) q
        (if (takeAnswer s).1.ok then 0x20 else 0x30) (takeAnswer s).1.data := by
  rw [responseBody, wireOf_relBody h, lane_replyRoute]
  congr 1
  cases (takeAnswer s).1.ok <;> rfl

/-- Settles O35: the operation is the handler transaction of `handler_eq` and nothing after it. -/
theorem dataNoackNeverAnswered : Obligations.DataNoackNeverAnswered := by
  intro q h d s hopen hmode
  refine ⟨(takeAnswer s).1, fun a rest => takeAnswer_waiting, (whileReliable_started hopen hmode _).trans ?_⟩
  rw [onDataNoack, handler_eq]
  rfl

/-- Settles O34: `onDataAck_eq` with the response frame in the layout of `relFrame`. -/
theorem dataAckAnswered : Obligations.DataAckAnswered := by
  intro q h d s hopen hmode
  have hreliable : s.cfg.relMode ≠ .off := by rcases hmode with ⟨hm, -⟩ | ⟨hm, -⟩ <;> simp [hm]
  refine ⟨(takeAnswer s).1, fun a rest => takeAnswer_waiting, takeAnswer_free_withinMax,
    (whileReliable_started hopen hmode _).trans ?_⟩
  rw [onDataAck_eq, wireOf_responseBody hreliable]
  rfl

end Sys2Proof.Machine
end

-- ==== Proofs: a chunk with framing on ====
section
/-! With framing on `RX.CHUNK` completes, and the cut of a stream does not depend on how it is divided into chunks
(R59, R110, R111, R208, R210). -/

namespace Sys2Proof.Machine

/-! ### The cut of a stream in two chunks -/

theorem cutSegments_append (segment a b : Bytes) :
    cutSegments segment (a ++ b) =
      ((cutSegments segment a).1 ++ (cutSegments (cutSegments segment a).2 b).1,
        (cutSegments (cutSegments segment a).2 b).2) := by
  induction a generalizing segment with
  | nil => rfl
  | cons x rest ih =>
    by_cases hx : x = delim
    · simp [cutSegments, hx, ih]
    · simp [cutSegments, hx, ih]

/-- Bytes without a terminator can be read as the begun segment. -/
theorem cutSegments_append_notMem (segment : Bytes) {a : Bytes} (h : (0x00 : Byte) ∉ a) (b : Bytes) :
    cutSegments segment (a ++ b) = cutSegments (segment ++ a) b := by
  induction a generalizing segment with
  | nil => simp
  | cons x rest ih =>
    obtain ⟨hx, hrest⟩ : (0x00 : Byte) ≠ x ∧ (0x00 : Byte) ∉ rest := by simpa using h
    have hx' : x ≠ delim := fun hz => hx hz.symm
    simp [cutSegments, hx', ih _ hrest]

/-- One segment for each terminator (R110). -/
theorem cutSegments_length (segment b : Bytes) : (cutSegments segment b).1.length = b.count 0x00 := by
  induction b generalizing segment with
  | nil => rfl
  | cons x rest ih =>
    by_cases hx : x = delim
    · subst hx
      simp [cutSegments, ih, delim]
    · have hx' : x ≠ 0x00 := hx
      rw [cutSegments, if_neg hx, ih, List.count_cons_of_ne hx']

theorem frameUnpack_length (carry chunk : Bytes) :
    (frameUnpack carry chunk).1.length = (carry ++ chunk).count 0x00 := by
  simp only [frameUnpack, List.length_map, cutSegments_length]

/-- `FRM.UNPACK` of two chunks in turn is that of their concatenation (R111). -/
theorem frameUnpack_append (carry c d : Bytes) :
    frameUnpack carry (c ++ d) =
      ((frameUnpack carry c).1 ++ (frameUnpack (frameUnpack carry c).2 d).1,
        (frameUnpack (frameUnpack carry c).2 d).2) := by
  have hzero : (0x00 : Byte) ∉ (cutSegments [] (carry ++ c)).2 := by
    rw [cutSegments_rest (by simp)]
    exact zero_notMem_afterLastZero _
  have hcut := cutSegments_append [] (carry ++ c) d
  simp only [frameUnpack, cutSegments_append_notMem [] hzero, ← List.append_assoc, hcut, List.map_append, List.nil_append]

/-! ### Candidates in `OFF` mode -/

/-- A verified body in `OFF` mode is one event, a packet or a discard (R210). -/
theorem receiveBody_off {s : State} (h : s.cfg.relMode = .off) (raw body : Bytes) :
    ∃ e, receiveBody raw body s = s.emitting [.event e] := by
  cases hunpack : rtUnpack s.params.protocolVersion body with
  | error e => exact ⟨_, receiveBody_badRouting (by simp [h]) hunpack⟩
  | ok parts => exact ⟨_, receiveBody_packet h hunpack⟩

theorem processCandidate_off {s : State} (h : s.cfg.relMode = .off) (x : Bytes) :
    ∃ e, processCandidate x s = s.emitting [.event e] := by
  cases heff : verifyEff s.cfg with
  | false =>
    rw [processCandidate_unverified heff]
    exact receiveBody_off h x x
  | true =>
    cases hver : verUnpack x with
    | error reason => exact ⟨_, processCandidate_badChecksum heff hver⟩
    | ok body =>
      rw [processCandidate_verified heff hver]
      exact receiveBody_off h x body

theorem processResult_off {s : State} (h : s.cfg.relMode = .off) (c : Candidate) :
    ∃ e, processResult s c = s.emitting [.event e] := by
  cases c with
  | ok x => exact processCandidate_off h x
  | err reason raw => exact ⟨_, rfl⟩

/-- In `OFF` mode each candidate is one event and nothing else. -/
theorem processAll_off {s : State} (h : s.cfg.relMode = .off) (cs : List Candidate) :
    ∃ l : List Event, l.length = cs.length ∧ processAll cs s = s.emitting (l.map .event) := by
  induction cs generalizing s with
  | nil => exact ⟨[], rfl, (emitting_nil s).symm⟩
  | cons c cs ih =>
    obtain ⟨e, he⟩ := processResult_off h c
    obtain ⟨l, hlen, hl⟩ := ih (s := s.emitting [.event e]) h
    refine ⟨e :: l, by simp [hlen], ?_⟩
    calc processAll (c :: cs) s = processAll cs (processResult s c) := rfl
      _ = s.emitting ((e :: l).map .event) := by rw [he, hl, emitting_emitting]; rfl

/-! ### `RX.CHUNK` -/

/-- Two chunks in turn do what their concatenation does (R111, R208). -/
theorem exec_rxChunk_append {c d : Bytes} {s : State} (hopen : s.rxClosed = false) (hframing : s.cfg.framingEn = true)
    (hc : s.WithinCap (afterLastZero (s.carry ++ c))) (hcd : s.WithinCap (afterLastZero (s.carry ++ c ++ d))) :
    ∃ s1 t : State, exec (.rxChunk c) s = .next s1 ∧ exec (.rxChunk d) s1 = .next t ∧
      exec (.rxChunk (c ++ d)) s = .next t := by
  have hsplit := frameUnpack_append s.carry c d
  have hfirst := received_all (frameUnpack s.carry c).1 { s with carry := (frameUnpack s.carry c).2 }
  have hfits : s.WithinCap (afterLastZero (s.carry ++ (c ++ d))) := by rwa [← List.append_assoc]
  have hrest : afterLastZero ((frameUnpack s.carry c).2 ++ d) = afterLastZero (s.carry ++ (c ++ d)) := by
    rw [← frameUnpack_carry, ← frameUnpack_carry, hsplit]
  refine ⟨_, _, exec_rxChunk_framed hopen hframing hc, exec_rxChunk_framed ?_ ?_ ?_, ?_⟩
  · exact hfirst.rxClosed.trans hopen
  · rw [hfirst.cfg]; exact hframing
  · rw [State.WithinCap, hfirst.params, hfirst.carry, hrest]
    exact hfits
  · rw [exec_rxChunk_framed hopen hframing hfits, hsplit, processAll_append, hfirst.carry]
    simp only [processAll_carry]

/-- Settles O38: `Received` says what the candidates can change, `processAll_off` counts the events of `OFF` mode, and
`exec_rxChunk_append` divides a chunk. -/
theorem rxChunkCompletes : Obligations.RxChunkCompletes := by
  refine ⟨fun chunk s hopen hframing hcap => ?_, fun _ _ _ => exec_rxChunk_append⟩
  have hexec := exec_rxChunk_framed hopen hframing hcap
  rw [frameUnpack_carry] at hexec
  obtain ⟨l, ht, -, -⟩ :=
    received_all (frameUnpack s.carry chunk).1 { s with carry := afterLastZero (s.carry ++ chunk) }
  refine ⟨_, l, hexec, ht, fun hoff => ?_⟩
  obtain ⟨m, hlen, hm⟩ := processAll_off (s := { s with carry := afterLastZero (s.carry ++ chunk) }) hoff
    (frameUnpack s.carry chunk).1
  have hl : l = m.map .event := by
    have hout := congrArg State.out (ht.symm.trans hm)
    exact List.append_cancel_left hout
  refine ⟨by rw [hl, List.length_map, hlen, frameUnpack_length], fun o ho => ?_, by rw [hm]; rfl, by rw [hm]; rfl,
    by rw [hm]; rfl⟩
  obtain ⟨e, -, rfl⟩ := List.mem_map.1 (hl ▸ ho)
  exact ⟨e, rfl⟩

end Sys2Proof.Machine
end

-- ==== Proofs: the bytes of the headers ====
section
/-! The routing header byte and byte 1 of the reliability header: their values, and their fields cut out again (R74, R76,
R77, R79, R89). -/

namespace Sys2Proof.Machine

/-! ### The routing header byte (R74, R89) -/

/-- `version * 64 + channel * 4 + request_response * 2 + reserved`, checked over the 256 headers. -/
theorem packRtHeader_toNat (h : RtHeader) : (packRtHeader h).toNat =
    h.version.toNat * 64 + h.channel.toNat * 4 + h.requestResponse.toNat * 2 + h.reserved.toNat := by
  obtain ⟨version, channel, requestResponse, reserved⟩ := h
  revert version channel requestResponse reserved
  decide

@[simp] theorem unpackRtHeader_packRtHeader (h : RtHeader) : unpackRtHeader (packRtHeader h) = h := by
  obtain ⟨version, channel, requestResponse, reserved⟩ := h
  have hvalue := packRtHeader_toNat ⟨version, channel, requestResponse, reserved⟩
  simp only at hvalue
  simp only [unpackRtHeader, RtHeader.mk.injEq, ← BitVec.toNat_inj, BitVec.extractLsb'_toNat, Nat.shiftRight_eq_div_pow,
    hvalue]
  omega

theorem packRtHeader_unpackRtHeader (b : Byte) : packRtHeader (unpackRtHeader b) = b := by
  apply BitVec.eq_of_toNat_eq
  simp only [packRtHeader_toNat, unpackRtHeader, BitVec.extractLsb'_toNat, Nat.shiftRight_eq_div_pow]
  omega

theorem map_unpackRtHeader_packRtHeader (route : Option RtHeader) :
    (route.map packRtHeader).map unpackRtHeader = route := by
  cases route <;> simp

/-! ### Byte 1 of the reliability header (R76, R77, R79) -/

/-- `frame_type * 16 + reserved`, checked over the 256 bytes. -/
theorem packRspByte_toNat (ft rv : BitVec 4) : (packRspByte ft rv).toNat = 16 * ft.toNat + rv.toNat := by
  revert ft rv
  decide

theorem packRspByte_eq (ft rv : BitVec 4) : packRspByte ft rv = BitVec.ofNat 8 (16 * ft.toNat + rv.toNat) := by
  rw [← packRspByte_toNat, BitVec.ofNat_toNat, BitVec.setWidth_eq]

@[simp] theorem rspFrameType_packRspByte (ft rv : BitVec 4) : rspFrameType (packRspByte ft rv) = ft := by
  apply BitVec.eq_of_toNat_eq
  rw [rspFrameType, BitVec.extractLsb'_toNat, packRspByte_toNat, Nat.shiftRight_eq_div_pow]
  omega

@[simp] theorem rspReserved_packRspByte (ft rv : BitVec 4) : rspReserved (packRspByte ft rv) = rv := by
  apply BitVec.eq_of_toNat_eq
  rw [rspReserved, BitVec.extractLsb'_toNat, packRspByte_toNat, Nat.shiftRight_eq_div_pow]
  omega

@[simp] theorem frameTypeOf_frameTypeCode (ft : FrameType) : frameTypeOf (frameTypeCode ft) = some ft := by
  cases ft <;> rfl

/-- The codes 4 to 15 name no frame type (R79). -/
theorem frameTypeOf_reserved {code : BitVec 4} (h : 4 ≤ code.toNat) : frameTypeOf code = none := by
  revert code
  decide

/-! ### The obligation -/

/-- Settles O3: the value of the byte, and from it the two inverse laws. -/
theorem routingHeaderByte : Obligations.RoutingHeaderByte :=
  ⟨packRtHeader_toNat, unpackRtHeader_packRtHeader, packRtHeader_unpackRtHeader⟩

end Sys2Proof.Machine
end

-- ==== Proofs: decoding an encoding ====
section
/-! The decoder undoes the encoder: every field of a record is read back at its value, every header from its bytes (R74,
R76, R77, R85, R86, R88). -/

namespace Sys2Proof.Machine

/-! ### Fields -/

/-- A field holds every value of its type (R85). -/
@[simp] theorem fieldOf_toNat {w : Nat} (x : BitVec w) : fieldOf w x.toNat = .ok x := by
  rw [fieldOf, if_pos x.isLt, BitVec.ofNat_toNat, BitVec.setWidth_eq]

theorem fieldOf_of_lt {w n : Nat} (h : n < 2 ^ w) : fieldOf w n = .ok (BitVec.ofNat w n) := if_pos h

theorem fieldOf_of_ge {w n : Nat} (h : 2 ^ w ≤ n) : fieldOf w n = .error .fieldRange := if_neg (Nat.not_lt_of_le h)

theorem exceptBind_of_ok {ε α β : Type} {x : Except ε α} {a : α} (h : x = .ok a) (f : α → Except ε β) :
    (x >>= f) = f a := by
  rw [h]; rfl

theorem exceptBind_of_error {ε α β : Type} {x : Except ε α} {e : ε} (h : x = .error e) (f : α → Except ε β) :
    (x >>= f) = .error e := by
  rw [h]; rfl

/-! ### Headers -/

/-- A received reliability header selects the row of its frame type (R77). -/
theorem decode_encodeRspHeader (route : Option RtHeader) (q : SeqNo) (ft rv : BitVec 4) (p : Bytes) :
    decode (encodeRspHeader route q ft rv p) = .ok (decodeRspHeader route q (packRspByte ft rv) p) := by
  rw [encodeRspHeader, decode, map_unpackRtHeader_packRtHeader]

/-! ### The obligations -/

/-- Settles O1: the record carries every operand at its value, and each field and header is read back from it. -/
theorem decodeOfEncode : Obligations.DecodeOfEncode := by
  intro i hwf
  cases i with
  | nop | cobsEnc _ | cobsDec _ | frmPack _ | crcGen _ | verPack _ | verUnpack _ | rtUnpack _ | rspUnpack _ | reset
  | rxChunk _ | rxClosed | frmUnpack _ | seqNext | seqNoack | tick => rfl
  | rtPack _ _ x | sendNoack _ _ x | sendAck _ _ _ x | txPlain _ x _ | cfgWr x | regRd x | regWr x _ | pendStore x _ _
  | pendTake x | pendPurge x | waitPoll x => exact exceptBind_of_ok (fieldOf_toNat x) _
  | rspPack q ft _ => exact (exceptBind_of_ok (fieldOf_toNat q) _).trans (exceptBind_of_ok (fieldOf_toNat ft) _)
  | rxDataAck q h _ | rxDataNoack q h _ | rxRespAck q h _ | rxRespNack q h _ =>
    refine (exceptBind_of_ok (fieldOf_toNat q) _).trans ?_
    rw [map_unpackRtHeader_packRtHeader]
    rfl
  | rtHdr h p => rw [encode, decode, unpackRtHeader_packRtHeader]
  | rspHdrDataAck _ _ _ _ | rspHdrDataNoack _ _ _ _ | rspHdrRespAck _ _ _ _ | rspHdrRespNack _ _ _ _ =>
    rw [encode, decode_encodeRspHeader, decodeRspHeader, rspFrameType_packRspByte, rspReserved_packRspByte,
      frameTypeOf_frameTypeCode]
  | rspHdrReserved _ _ ft _ _ =>
    have hft : 4 ≤ ft.toNat := by simpa [Instr.wf] using hwf
    rw [encode, decode_encodeRspHeader, decodeRspHeader, rspFrameType_packRspByte, rspReserved_packRspByte,
      frameTypeOf_reserved hft]

/-- Settles O2, word by word by evaluation. -/
theorem tableWordsDecode : Obligations.TableWordsDecode :=
  ⟨rfl, rfl, rfl, rfl, rfl, rfl, rfl, rfl, rfl, rfl, rfl, rfl⟩

end Sys2Proof.Machine
end

-- ==== Proofs: commands out of range ====
section
/-! Command records the block refuses: illegal codes (R87), fields outside their types (R85), channels and timeouts out of
range (R137, R172, R238). -/

namespace Sys2Proof.Machine

/-! ### Codes that select no command -/

/-- A record that selects a command is that command. -/
theorem serve_command {code : Byte} {a : Args} {i : Instr} (h : decodeCommand code a = .ok i) (s : State) :
    serve (.cmd code a) s = exec i s :=
  serve_ok (show decode (.cmd code a) = .ok i from h) s

/-- Only the eighteen codes of R86 select a command (R87). -/
theorem decodeCommand_illegal {code : Byte}
    (h : code.toNat ∉ [0x00, 0x01, 0x02, 0x03, 0x10, 0x11, 0x12, 0x20, 0x21, 0x22, 0x23, 0x40, 0x41, 0x48, 0x60, 0x61,
      0x62, 0x6F]) (a : Args) : decodeCommand code a = .error .illegalCommand := by
  unfold decodeCommand
  split
  case h_19 => rfl
  all_goals rename_i hcode; simp [hcode] at h

/-- Settles O5: `decodeCommand_illegal`, and a record that selects no command is answered by its error alone. -/
theorem illegalCommandCodeRefused : Obligations.IllegalCommandCodeRefused :=
  fun _ _ a _ hcode hin => (step_serve hin).trans (serve_badCommand (decodeCommand_illegal hcode a) _)

/-! ### Fields outside their types (R85, R238) -/

section
variable {code : Byte} {a : Args}

theorem decodeCommand_badFlag (hcode : code ∈ [(0x20 : Byte), 0x40, 0x41, 0x48]) (h : 2 ≤ a.requestResponse) :
    decodeCommand code a = .error .fieldRange := by
  have hflag : fieldOf 1 a.requestResponse = .error .fieldRange := fieldOf_of_ge h
  simp only [List.mem_cons, List.not_mem_nil, or_false] at hcode
  rcases hcode with rfl | rfl | rfl | rfl <;> exact exceptBind_of_error hflag _

theorem decodeCommand_badRspPack (h : 256 ≤ a.sequence ∨ 256 ≤ a.frameType) :
    decodeCommand 0x22 a = .error .fieldRange := by
  by_cases hseq : a.sequence < 256
  · have hft : 256 ≤ a.frameType := h.resolve_left (Nat.not_le_of_lt hseq)
    exact (exceptBind_of_ok (fieldOf_of_lt hseq) _).trans (exceptBind_of_error (fieldOf_of_ge hft) _)
  · exact exceptBind_of_error (fieldOf_of_ge (Nat.le_of_not_lt hseq)) _

theorem decodeCommand_badCfgValue (h : 256 ≤ a.value) : decodeCommand 0x60 a = .error .fieldRange :=
  exceptBind_of_error (fieldOf_of_ge h) _

theorem decodeCommand_badNumber (hcode : code ∈ [(0x61 : Byte), 0x62]) (h : 256 ≤ a.number) :
    decodeCommand code a = .error .fieldRange := by
  have hnumber : fieldOf 8 a.number = .error .fieldRange := fieldOf_of_ge h
  simp only [List.mem_cons, List.not_mem_nil, or_false] at hcode
  rcases hcode with rfl | rfl <;> exact exceptBind_of_error hnumber _

theorem decodeCommand_regWr (h : a.number < 256) :
    decodeCommand 0x62 a = .ok (.regWr (BitVec.ofNat 8 a.number) a.value) :=
  exceptBind_of_ok (fieldOf_of_lt h) _

/-- The four commands with a request flag, the flag within its type. -/
theorem decodeCommand_flag (h : a.requestResponse < 2) :
    decodeCommand 0x20 a = .ok (.rtPack a.bytes a.channel (BitVec.ofNat 1 a.requestResponse)) ∧
    decodeCommand 0x40 a = .ok (.sendNoack a.bytes a.channel (BitVec.ofNat 1 a.requestResponse)) ∧
    decodeCommand 0x41 a = .ok (.sendAck a.bytes a.timeout a.channel (BitVec.ofNat 1 a.requestResponse)) ∧
    decodeCommand 0x48 a = .ok (.txPlain a.channel (BitVec.ofNat 1 a.requestResponse) a.bytes) := by
  have hflag : fieldOf 1 a.requestResponse = .ok (BitVec.ofNat 1 a.requestResponse) := fieldOf_of_lt h
  exact ⟨exceptBind_of_ok hflag _, exceptBind_of_ok hflag _, exceptBind_of_ok hflag _, exceptBind_of_ok hflag _⟩

end

/-! ### Channels and timeouts out of range (R137, R171, R172, R205, R238) -/

theorem channelOf_out {ch : Nat} (h : 15 < ch) : channelOf ch = .error (.contract .channelRange) := if_pos h

theorem rtPack_channelRange {ch : Nat} (h : 15 < ch) (v : BitVec 2) (p : Bytes) (rr : BitVec 1) :
    rtPack v p ch rr = .error (.contract .channelRange) := by
  rw [rtPack, channelOf_out h]

/-- The channel test of a send: 4 bits where the channel is used, 8 where it is not (R171, R172; log 7). -/
theorem sendRoute_channelRange {mode : RelMode} {ch : Nat}
    (h : (mode = .above ∧ 15 < ch) ∨ (mode = .below ∧ 256 ≤ ch)) (rr : BitVec 1) :
    sendRoute mode ch rr = .error (.contract .channelRange) := by
  rcases h with ⟨rfl, hch⟩ | ⟨rfl, hch⟩
  · simp only [sendRoute, channelOf_out hch]
  · exact if_pos hch

theorem sendRoute_legal {mode : RelMode} {ch : Nat}
    (h : (mode = .below ∧ ch < 256) ∨ (mode = .above ∧ ch ≤ 15)) (rr : BitVec 1) :
    ∃ route, sendRoute mode ch rr = .ok route := by
  rcases h with ⟨rfl, hch⟩ | ⟨rfl, hch⟩
  · exact ⟨.below, if_neg (Nat.not_le_of_lt hch)⟩
  · exact ⟨.above (BitVec.ofNat 4 ch) rr, by rw [sendRoute, channelOf, if_neg (Nat.not_lt_of_le hch)]⟩

section
variable {s : State} {p : Bytes} {ch : Nat}

theorem exec_rtPack_channelRange (hp : s.WithinMax p) (h : 15 < ch) (rr : BitVec 1) :
    exec (.rtPack p ch rr) s = .next (fail (.contract .channelRange) s) := by
  show execRtPack p ch rr s = _
  rw [execRtPack, withPayload_eq hp, rtPack_channelRange h]

theorem exec_txPlain_channelRange (hp : s.WithinMax p) (hmode : s.cfg.relMode = .off) (h : 15 < ch) (rr : BitVec 1) :
    exec (.txPlain ch rr p) s = .next (fail (.contract .channelRange) s) := by
  show execTxPlain ch rr p s = _
  rw [execTxPlain, withPayload_eq hp, if_neg (by simp [hmode]), rtPack_channelRange h]

theorem exec_sendNoack_refused (hp : s.WithinMax p) {rr : BitVec 1} {e : Err}
    (h : sendRoute s.cfg.relMode ch rr = .error e) : exec (.sendNoack p ch rr) s = .next (fail e s) := by
  show execSendNoack p ch rr s = _
  rw [execSendNoack, withPayload_eq hp, h]

theorem exec_sendAck_refused (hp : s.WithinMax p) {rr : BitVec 1} {e : Err}
    (h : sendRoute s.cfg.relMode ch rr = .error e) (timeout : Option Nat) :
    exec (.sendAck p timeout ch rr) s = .next (fail e s) := by
  show execSendAck p timeout ch rr s = _
  rw [execSendAck, withPayload_eq hp, h]

theorem exec_sendAck_timeoutRange (hp : s.WithinMax p) {rr : BitVec 1} {route : Route}
    (h : sendRoute s.cfg.relMode ch rr = .ok route) {t : Nat} (ht : 2 ^ 31 - 1 < t) :
    exec (.sendAck p (some t) ch rr) s = .next (fail (.contract .timeoutRange) s) := by
  have hlate : timeoutMax < timeoutOf (some t) s.timeoutDefault := ht
  show execSendAck p (some t) ch rr s = _
  rw [execSendAck, withPayload_eq hp, h]
  simp only [if_pos hlate]

end

/-- A bytes operand longer than `MAX_PAYLOAD` is refused before the command's own checks (R85; log 7). -/
theorem withPayload_tooLong {s : State} {b : Bytes} {m : Nat} (hmax : s.params.maxPayload = some m)
    (hlong : m < b.length) (run : State) : withPayload b s run = .next (fail (.contract .fieldRange) s) := by
  have hfits : payloadFits s.params b = false := by simp [payloadFits, withinCapacity, hmax, hlong]
  rw [withPayload, if_neg (by simp [hfits])]

/-! ### Each reason of R238 -/

section
variable {s : State} {code : Byte} {a : Args}

/-- A field of a record outside its type, or a value of `REG.WR` that is no `u32` (R85). -/
theorem serve_fieldRange
    (h : (code ∈ [(0x20 : Byte), 0x40, 0x41, 0x48] ∧ 2 ≤ a.requestResponse) ∨
      (code = 0x22 ∧ (256 ≤ a.sequence ∨ 256 ≤ a.frameType)) ∨ (code = 0x60 ∧ 256 ≤ a.value) ∨
      (code ∈ [(0x61 : Byte), 0x62] ∧ 256 ≤ a.number) ∨ (code = 0x62 ∧ a.number ≠ 4 ∧ 2 ^ 32 ≤ a.value)) :
    serve (.cmd code a) s = .next (fail (.contract .fieldRange) s) := by
  rcases h with ⟨hcode, hflag⟩ | ⟨rfl, hfield⟩ | ⟨rfl, hvalue⟩ | ⟨hcode, hnumber⟩ | ⟨rfl, h4, hvalue⟩
  · exact serve_badCommand (decodeCommand_badFlag hcode hflag) s
  · exact serve_badCommand (decodeCommand_badRspPack hfield) s
  · exact serve_badCommand (decodeCommand_badCfgValue hvalue) s
  · exact serve_badCommand (decodeCommand_badNumber hcode hnumber) s
  · by_cases hnumber : a.number < 256
    · have hne : BitVec.ofNat 8 a.number ≠ 4 := fun he =>
        h4 (by simpa [Nat.mod_eq_of_lt hnumber] using congrArg BitVec.toNat he)
      exact (serve_command (decodeCommand_regWr hnumber) s).trans (exec_regWr_wide hvalue hne s)
    · exact serve_badCommand (decodeCommand_badNumber (by simp) (Nat.le_of_not_lt hnumber)) s

theorem serve_send_channelRange (hp : s.WithinMax a.bytes) (hflag : a.requestResponse < 2)
    (hcode : code ∈ [(0x40 : Byte), 0x41])
    (h : (s.cfg.relMode = .above ∧ 15 < a.channel) ∨ (s.cfg.relMode = .below ∧ 256 ≤ a.channel)) :
    serve (.cmd code a) s = .next (fail (.contract .channelRange) s) := by
  obtain ⟨-, hsendNoack, hsendAck, -⟩ := decodeCommand_flag hflag
  have hroute := sendRoute_channelRange h (BitVec.ofNat 1 a.requestResponse)
  simp only [List.mem_cons, List.not_mem_nil, or_false] at hcode
  rcases hcode with rfl | rfl
  · exact (serve_command hsendNoack s).trans (exec_sendNoack_refused hp hroute)
  · exact (serve_command hsendAck s).trans (exec_sendAck_refused hp hroute a.timeout)

/-- A channel out of range where the command uses it, or one that is no `u8` in `BELOW` mode (R137, log 7). -/
theorem serve_channelRange (hp : s.WithinMax a.bytes) (hflag : a.requestResponse < 2)
    (h : (15 < a.channel ∧ (code = 0x20 ∨ (code = 0x48 ∧ s.cfg.relMode = .off) ∨
        (code ∈ [(0x40 : Byte), 0x41] ∧ s.cfg.relMode = .above))) ∨
      (256 ≤ a.channel ∧ code ∈ [(0x40 : Byte), 0x41] ∧ s.cfg.relMode = .below)) :
    serve (.cmd code a) s = .next (fail (.contract .channelRange) s) := by
  obtain ⟨hrtPack, -, -, htxPlain⟩ := decodeCommand_flag hflag
  rcases h with ⟨hch, rfl | ⟨rfl, hmode⟩ | ⟨hcode, hmode⟩⟩ | ⟨hch, hcode, hmode⟩
  · exact (serve_command hrtPack s).trans (exec_rtPack_channelRange hp hch _)
  · exact (serve_command htxPlain s).trans (exec_txPlain_channelRange hp hmode hch _)
  · exact serve_send_channelRange hp hflag hcode (.inl ⟨hmode, hch⟩)
  · exact serve_send_channelRange hp hflag hcode (.inr ⟨hmode, hch⟩)

/-- A timeout above 2^31 - 1, once mode and channel are legal (R172). -/
theorem serve_sendAck_timeoutRange (hp : s.WithinMax a.bytes) (hflag : a.requestResponse < 2)
    (hmode : (s.cfg.relMode = .below ∧ a.channel < 256) ∨ (s.cfg.relMode = .above ∧ a.channel ≤ 15)) {t : Nat}
    (ht : a.timeout = some t) (hlate : 2 ^ 31 - 1 < t) :
    serve (.cmd 0x41 a) s = .next (fail (.contract .timeoutRange) s) := by
  obtain ⟨-, -, hsendAck, -⟩ := decodeCommand_flag hflag
  obtain ⟨route, hroute⟩ := sendRoute_legal hmode (BitVec.ofNat 1 a.requestResponse)
  rw [ht] at hsendAck
  exact (serve_command hsendAck s).trans (exec_sendAck_timeoutRange hp hroute hlate)

theorem serve_regWr_timeoutRange (hnumber : a.number = 4) (hvalue : 2 ^ 31 - 1 < a.value) :
    serve (.cmd 0x62 a) s = .next (fail (.contract .timeoutRange) s) := by
  have hdecode := decodeCommand_regWr (a := a) (by omega)
  rw [hnumber] at hdecode
  refine (serve_command hdecode s).trans ((exec_regWr_timeout a.value s).trans ?_)
  rw [if_neg (Nat.not_le_of_lt hvalue)]
  rfl

end

/-- Settles O6, one law for each reason; the commands with a bytes operand all begin with `withPayload`. -/
theorem fieldOutsideItsTypeRefused : Obligations.FieldOutsideItsTypeRefused := by
  refine ⟨fun s code a rest h hin => ?_, fun s code a rest hp hflag h hin => ?_,
    fun s a t rest hp hflag hmode ht hlate hin => ?_, fun s a rest hnumber hvalue hin => ?_,
    fun s b m ch ft rr q timeout hmax hlong i hi => ?_⟩
  · exact (step_serve hin).trans (serve_fieldRange h)
  · exact (step_serve hin).trans (serve_channelRange (s := { s with inbox := rest }) hp hflag h)
  · exact (step_serve hin).trans (serve_sendAck_timeoutRange (s := { s with inbox := rest }) hp hflag hmode ht hlate)
  · exact (step_serve hin).trans (serve_regWr_timeoutRange hnumber hvalue)
  · simp only [List.mem_cons, List.not_mem_nil, or_false] at hi
    rcases hi with rfl | rfl | rfl | rfl | rfl | rfl | rfl | rfl | rfl | rfl | rfl | rfl | rfl
    all_goals exact withPayload_tooLong hmax hlong _

end Sys2Proof.Machine
end

-- ==== Proofs: the blocks of COBS ====
section
/-! The decoder against the block structure of R73: it answers what a sequence of blocks stands for, and nothing but such a
sequence decodes (R105, R106). -/

namespace Sys2Proof.Machine

/-! ### Decoding a sequence of blocks -/

/-- The decoder at a block boundary answers what the blocks stand for, after the zero owed by the block before. -/
theorem cobsDecodeFrom_blockBytes {l : List CobsBlock} (h : ∀ b ∈ l, b.good) (zeroDue : Bool) :
    cobsDecodeFrom zeroDue 0 (blockBytes l) =
      .ok ((if zeroDue = true ∧ l ≠ [] then [0x00] else []) ++ blockMeaning l) := by
  induction l generalizing zeroDue with
  | nil => simp [blockBytes, cobsDecodeFrom, blockMeaning]
  | cons b l ih =>
    obtain ⟨⟨hlength, -⟩, hl⟩ := List.forall_mem_cons.1 h
    have hbytes : blockBytes (b :: l) = b.1 :: (b.2 ++ blockBytes l) := by simp [blockBytes]
    have hmeaning : blockMeaning (b :: l) =
        b.2 ++ ((if (b.1 != 0xFF) = true ∧ l ≠ [] then [0x00] else []) ++ blockMeaning l) := by
      cases l with
      | nil => simp [blockMeaning]
      | cons c rest => by_cases hfull : b.1 = 0xFF <;> simp [blockMeaning, hfull]
    rw [hbytes, cobsDecodeFrom_block zeroDue hlength.symm (ih hl _), hmeaning]
    cases zeroDue <;> simp

/-- Bytes without a terminator, read with `need` data bytes still to come: those data bytes and a sequence of blocks, or
the last block is cut short (R105). -/
theorem cobsDecodeFrom_cases {x : Bytes} (hzero : (0x00 : Byte) ∉ x) (zeroDue : Bool) (need : Nat) :
    (∃ (d : Bytes) (l : List CobsBlock), d.length = need ∧ (∀ b ∈ l, b.good) ∧ x = d ++ blockBytes l) ∨
      cobsDecodeFrom zeroDue need x = .error .truncatedBlock := by
  induction x generalizing zeroDue need with
  | nil =>
    cases need with
    | zero => exact .inl ⟨[], [], rfl, by simp, rfl⟩
    | succ need => exact .inr rfl
  | cons b rest ih =>
    obtain ⟨hb, hrest⟩ : (0x00 : Byte) ≠ b ∧ (0x00 : Byte) ∉ rest := by simpa using hzero
    cases need with
    | zero =>
      rcases ih hrest (b != 0xFF) (b.toNat - 1) with ⟨d, l, hlength, hl, hx⟩ | hcut
      · have hpos : b.toNat ≠ 0 := fun h => hb (BitVec.eq_of_toNat_eq h.symm)
        have hd : (0x00 : Byte) ∉ d := fun hmem => hrest (hx ▸ List.mem_append_left _ hmem)
        refine .inl ⟨[], (b, d) :: l, rfl, List.forall_mem_cons.2 ⟨⟨?_, hd⟩, hl⟩, by simp [hx, blockBytes]⟩
        show d.length + 1 = b.toNat
        omega
      · exact .inr (by rw [cobsDecodeFrom, hcut])
    | succ need =>
      rcases ih hrest zeroDue need with ⟨d, l, hlength, hl, hx⟩ | hcut
      · exact .inl ⟨b :: d, l, by simp [hlength], hl, by simp [hx]⟩
      · exact .inr (by rw [cobsDecodeFrom, hcut])

/-! ### `CobsDecode` by its outcomes (R105, R106) -/

theorem cobsDecode_zero {x : Bytes} (h : (0x00 : Byte) ∈ x) : cobsDecode x = .error .zeroInSegment :=
  if_pos (List.contains_iff_mem.2 h)

theorem cobsDecode_blockBytes {l : List CobsBlock} (h : ∀ b ∈ l, b.good) (hzero : (0x00 : Byte) ∉ blockBytes l)
    (hne : blockBytes l ≠ []) : cobsDecode (blockBytes l) = .ok (blockMeaning l) := by
  rw [cobsDecode_eq hzero hne, cobsDecodeFrom_blockBytes h]
  rfl

theorem cobsDecode_truncated {x : Bytes} (hzero : (0x00 : Byte) ∉ x) (hne : x ≠ [])
    (h : ¬∃ l : List CobsBlock, (∀ b ∈ l, b.good) ∧ x = blockBytes l) :
    cobsDecode x = .error .truncatedBlock := by
  rw [cobsDecode_eq hzero hne]
  rcases cobsDecodeFrom_cases hzero false 0 with ⟨d, l, hlength, hl, hx⟩ | hcut
  · rw [List.length_eq_zero_iff.1 hlength] at hx
    exact absurd ⟨l, hl, hx⟩ h
  · exact hcut

/-- What decodes is a sequence of blocks, and decodes to what the blocks stand for (R73). -/
theorem cobsDecode_ok {x p : Bytes} (h : cobsDecode x = .ok p) :
    ∃ l : List CobsBlock, l ≠ [] ∧ (∀ b ∈ l, b.good) ∧ x = blockBytes l ∧ blockMeaning l = p := by
  have hzero : (0x00 : Byte) ∉ x := fun hz => by rw [cobsDecode_zero hz] at h; cases h
  have hne : x ≠ [] := fun he => by rw [he] at h; cases h
  by_cases hblocks : ∃ l : List CobsBlock, (∀ b ∈ l, b.good) ∧ x = blockBytes l
  · obtain ⟨l, hl, rfl⟩ := hblocks
    rw [cobsDecode_blockBytes hl hzero hne] at h
    cases h
    exact ⟨l, fun he => hne (by rw [he]; rfl), hl, rfl, rfl⟩
  · rw [cobsDecode_truncated hzero hne hblocks] at h
    cases h

/-- Settles O10: the encoding decodes, so it is a sequence of blocks that stands for what it decodes to. -/
theorem cobsEncodingIsBlocks : Obligations.CobsEncodingIsBlocks :=
  fun u => cobsDecode_ok (cobsDecode_cobsEncode u)

/-! ### `COBS.DEC` -/

section
variable {x : Bytes} {s : State}

theorem exec_cobsDec_ok (hmax : s.WithinMax x) {p : Bytes} (h : cobsDecode x = .ok p) :
    exec (.cobsDec x) s = .next (s.emitting [.result .ok (.bytes p)]) := by
  show execCobsDec x s = _
  rw [execCobsDec, withPayload_eq hmax, h]
  rfl

theorem exec_cobsDec_error (hmax : s.WithinMax x) {reason : FramingReason} (h : cobsDecode x = .error reason) :
    exec (.cobsDec x) s = .next (s.emitting [.result (.error (.framing reason)) .none]) := by
  show execCobsDec x s = _
  rw [execCobsDec, withPayload_eq hmax, h]
  rfl

end

/-- Settles O12: the tests of R105 in their order. -/
theorem cobsDecodeOutcomes : Obligations.CobsDecodeOutcomes := by
  intro x s hmax
  split
  next hzero => exact exec_cobsDec_error hmax (cobsDecode_zero hzero)
  next hzero =>
    split
    next hempty =>
      subst hempty
      exact exec_cobsDec_error hmax rfl
    next hne =>
      refine ⟨fun l hl hx => ?_, fun hno => exec_cobsDec_error hmax (cobsDecode_truncated hzero hne hno)⟩
      subst hx
      exact exec_cobsDec_ok hmax (cobsDecode_blockBytes hl hzero hne)

end Sys2Proof.Machine
end

-- ==== Proofs: the checksum of a unit ====
section
/-! A unit with its checksum leaves the residue 0, so it is verified and gives the payload back (R124 to R127). -/

namespace Sys2Proof.Machine

/-! ### The checksum of a checksummed unit (R124, R126) -/

/-- A shift before the byte has reached the top of the register subtracts nothing. -/
theorem crcShift_shiftLeft (b : Byte) {k : Nat} (h : k < 8) :
    crcShift (b.setWidth 16 <<< k) = b.setWidth 16 <<< (k + 1) := by
  have htop : (b.setWidth 16 <<< k).getLsbD 15 = false := by
    rw [BitVec.getLsbD_shiftLeft, BitVec.getLsbD_setWidth, BitVec.getLsbD_of_ge b (15 - k) (by omega)]
    simp
  rw [crcShift, if_neg (by rw [htop]; exact Bool.false_ne_true), BitVec.shiftLeft_add]

theorem crcShift8_byte (b : Byte) : crcShift8 (b.setWidth 16) = b.setWidth 16 <<< 8 := by
  have hstart : b.setWidth 16 = b.setWidth 16 <<< 0 := by simp
  rw [hstart]
  simp only [crcShift8, crcShift_shiftLeft, Nat.reduceLT, Nat.reduceAdd]
  simp

/-- The upper byte entering its own register leaves the lower byte, moved up. -/
theorem crcByte_high (c : BitVec 16) : crcByte c (c.extractLsb' 8 8) = (c.extractLsb' 0 8).setWidth 16 <<< 8 := by
  have hlow : c ^^^ ((c.extractLsb' 8 8).setWidth 16 <<< 8) = (c.extractLsb' 0 8).setWidth 16 := by
    apply BitVec.eq_of_getLsbD_eq
    intro i hi
    by_cases h8 : i < 8
    · simp [h8, hi]
    · have hi' : 8 + (i - 8) = i := by omega
      simp [h8, hi, hi', show i - 8 < 8 by omega]
  rw [crcByte, hlow, crcShift8_byte]

theorem crc16_be16 (body : Bytes) : crc16 (body ++ be16 (crc16 body)) = 0 := by
  have hfold : crc16 (body ++ be16 (crc16 body)) =
      crcByte (crcByte (crc16 body) ((crc16 body).extractLsb' 8 8)) ((crc16 body).extractLsb' 0 8) := by
    simp [crc16, be16]
  rw [hfold, crcByte_high, crcByte, BitVec.xor_self]
  rfl

/-- `VerUnpack(VerPack(p)) = p` (R126, R127). -/
theorem verUnpack_verPack (body : Bytes) : verUnpack (verPack body) = .ok body := by
  have hlength : (verPack body).length = body.length + 2 := by simp [verPack, be16]
  rw [verUnpack, if_neg (by omega), if_neg (by simp [verPack, crc16_be16]), hlength]
  simp [verPack]

end Sys2Proof.Machine
end

-- ==== Proofs: the rows of the wire headers ====
section
/-! A header row is the reception of the frame that carries its body, and starts what its header selects (R74 to R79, R209;
log 8). -/

namespace Sys2Proof.Machine

/-! ### A frame received with nothing carried over -/

/-- `RX.CHUNK` of what the link gets for one candidate processes that candidate (R110, R208). -/
theorem exec_rxChunk_candidate {s : State} (hopen : s.rxClosed = false) (hcarry : s.cfg.framingEn = true → s.carry = [])
    (x : Bytes) :
    exec (.rxChunk (if s.cfg.framingEn then cobsEncode x ++ [0x00] else x)) s = .next (processCandidate x s) := by
  cases hframing : s.cfg.framingEn with
  | false => exact exec_rxChunk_unframed hopen hframing x
  | true =>
    have hempty := hcarry hframing
    have hself : { s.withFraming with carry := [] } = s := by
      obtain ⟨⟨_, _, _⟩, _, _, _, _, _, _, _, _, _, _, _, _⟩ := s
      cases hframing
      cases hempty
      rfl
    have hframe := exec_rxChunk_frame hopen x
    rw [← processCandidate_carry, hself] at hframe
    exact hframe

theorem verifyEff_iff (c : Cfg) : verifyEff c = true ↔ c.verifyEn = true ∨ c.relMode ≠ .off := by
  simp [verifyEff]

theorem unitOf_checked {c : Cfg} (h : verifyEff c = true) (body : Bytes) : unitOf c body = verPack body := if_pos h

theorem unitOf_unchecked {c : Cfg} (h : verifyEff c ≠ true) (body : Bytes) : unitOf c body = body := if_neg h

/-- The link gets the unit of a body, framed when `FRAMING_EN = 1` (R70, R71). -/
theorem linkFrame_eq (s : State) (body : Bytes) :
    (if s.cfg.verifyEn = true ∨ s.cfg.relMode ≠ .off then checkedFrame s body else uncheckedFrame s body) =
      if s.cfg.framingEn then cobsEncode (unitOf s.cfg body) ++ [0x00] else unitOf s.cfg body := by
  by_cases heff : verifyEff s.cfg = true
  · rw [if_pos ((verifyEff_iff s.cfg).1 heff), unitOf_checked heff]
    rfl
  · rw [if_neg (mt (verifyEff_iff s.cfg).2 heff), unitOf_unchecked heff]
    rfl

/-- The unit of a body is verified and gives the body back (R127, R209). -/
theorem processCandidate_unitOf (s : State) (body : Bytes) :
    processCandidate (unitOf s.cfg body) s = receiveBody (unitOf s.cfg body) body s := by
  by_cases heff : verifyEff s.cfg = true
  · rw [unitOf_checked heff]
    exact processCandidate_verified heff (verUnpack_verPack body)
  · rw [unitOf_unchecked heff]
    exact processCandidate_unverified (Bool.eq_false_of_not_eq_true heff)

/-! ### The header rows -/

theorem exec_bodyArrives {i : Instr} {body : Bytes} {s : State} (hi : Instr.arrivingBody i = some body)
    (hopen : s.rxClosed = false) : exec i s = .next (receiveBody (unitOf s.cfg body) body s) := by
  rw [exec_arrivingBody hi, bodyArrives, whileOpen_open hopen]

/-- Settles O46: the row is the arrival of its body, and the frame's candidate is the body's unit. -/
theorem headerRowsAreReception : Obligations.HeaderRowsAreReception := by
  intro i body s hbody hopen hcarry
  have hi : Instr.arrivingBody i = some body := by
    cases i with
    | rtHdr _ _ | rspHdrDataAck _ _ _ _ | rspHdrDataNoack _ _ _ _ | rspHdrRespAck _ _ _ _ | rspHdrRespNack _ _ _ _
    | rspHdrReserved _ _ _ _ _ => exact congrArg some hbody.symm
    | _ => cases hbody
  refine ⟨_, exec_bodyArrives hi hopen, ?_⟩
  rw [linkFrame_eq, exec_rxChunk_candidate hopen hcarry, processCandidate_unitOf]

/-! ### The row `RTHDR` -/

/-- The version test on a routing header (R139). -/
theorem rtUnpack_packRtHeader (v : BitVec 2) (h : RtHeader) (p : Bytes) :
    rtUnpack v (packRtHeader h :: p) = if h.version = v then .ok (h, p) else .error (.protocolVersion h.version) := by
  rw [rtUnpack, unpackRtHeader_packRtHeader]
  by_cases hv : h.version = v <;> simp [hv]

/-- Settles O44: `rtUnpack_packRtHeader` in `OFF` mode. -/
theorem routingHeaderRow : Obligations.RoutingHeaderRow := by
  intro h p s hopen hmode
  have hunit : unitOf s.cfg (packRtHeader h :: p) =
      if s.cfg.verifyEn then verPack (packRtHeader h :: p) else packRtHeader h :: p := by
    simp [unitOf, verifyEff, hmode]
  have hunpack := rtUnpack_packRtHeader s.params.protocolVersion h p
  show exec (.rtHdr h p) s = _
  rw [exec_bodyArrives rfl hopen]
  by_cases hv : h.version = s.params.protocolVersion
  · rw [if_pos hv] at hunpack
    rw [receiveBody_packet hmode hunpack, if_pos hv]
    rfl
  · rw [if_neg hv] at hunpack
    rw [receiveBody_badRouting (by simp [hmode]) hunpack, if_neg hv, hunit]
    rfl

/-! ### The rows of the reliability header -/

theorem rspUnpack_frameType (q : SeqNo) (ft : FrameType) (rv : BitVec 4) (d : Bytes) :
    rspUnpack (q :: packRspByte (frameTypeCode ft) rv :: d) = .ok ⟨q, ft, rv, d⟩ := by
  rw [rspUnpack, rspFrameType_packRspByte, frameTypeOf_frameTypeCode, rspReserved_packRspByte]

theorem rspUnpack_reserved {ft : BitVec 4} (h : 4 ≤ ft.toNat) (q : SeqNo) (rv : BitVec 4) (d : Bytes) :
    rspUnpack (q :: packRspByte ft rv :: d) = .error (.malformed .badFrameType) := by
  rw [rspUnpack, rspFrameType_packRspByte, frameTypeOf_reserved h]

/-- The header in front of a reliability header is the one the mode has: none in `BELOW` mode, in `ABOVE` mode one of the
block's version (R57, R139). -/
def RouteOfMode (s : State) (route : Option RtHeader) : Prop :=
  (s.cfg.relMode = .below ∧ route = none) ∨
    (s.cfg.relMode = .above ∧ ∃ h, route = some h ∧ h.version = s.params.protocolVersion)

section
variable {route : Option RtHeader} {s : State}

theorem RouteOfMode.reliable (h : RouteOfMode s route) : s.cfg.relMode ≠ .off := by
  rcases h with ⟨hmode, -⟩ | ⟨hmode, -⟩ <;> simp [hmode]

theorem RouteOfMode.started (h : RouteOfMode s route) (hopen : s.rxClosed = false) (run : State) :
    whileReliable route s run = .next run := by
  refine whileReliable_started hopen ?_ run
  rcases h with hbelow | ⟨hmode, _, rfl, -⟩
  · exact .inl hbelow
  · exact .inr ⟨hmode, by simp⟩

theorem RouteOfMode.receiveBody (h : RouteOfMode s route) (raw : Bytes) (q : SeqNo) (ft rv : BitVec 4) (d : Bytes) :
    Machine.receiveBody raw (rspBody route q ft rv d) s =
      receiveReliability raw route (q :: packRspByte ft rv :: d) s := by
  rcases h with ⟨hmode, rfl⟩ | ⟨hmode, x, rfl, hversion⟩
  · exact receiveBody_below hmode
  · exact receiveBody_above hmode ((rtUnpack_packRtHeader _ x _).trans (if_pos hversion))

/-- A body with one of the four frame types starts the operation of that type, whatever the reserved bits are
(R78, R209). -/
theorem RouteOfMode.bodyArrives_frameType (h : RouteOfMode s route) (hopen : s.rxClosed = false) (q : SeqNo)
    (ft : FrameType) (rv : BitVec 4) (d : Bytes) :
    bodyArrives (rspBody route q (frameTypeCode ft) rv d) s = .next (dispatch ft q route d s) := by
  rw [bodyArrives, whileOpen_open hopen, h.receiveBody, receiveReliability_dispatch (rspUnpack_frameType q ft rv d)]

/-- A body with a reserved frame type is dropped (R79, R146). -/
theorem RouteOfMode.bodyArrives_reserved (h : RouteOfMode s route) (hopen : s.rxClosed = false) {ft : BitVec 4}
    (hft : 4 ≤ ft.toNat) (q : SeqNo) (rv : BitVec 4) (d : Bytes) :
    bodyArrives (rspBody route q ft rv d) s =
      .next (discard (.malformed .badFrameType) (verPack (rspBody route q ft rv d)) s) := by
  rw [bodyArrives, whileOpen_open hopen, h.receiveBody, receiveReliability_bad (rspUnpack_reserved hft q rv d),
    unitOf_checked (verifyEff_of_reliable h.reliable)]

end

/-- Settles O45: the rows are the arrival of a body with their frame type. -/
theorem reliabilityHeaderRows : Obligations.ReliabilityHeaderRows := by
  intro route q rv ft d s hopen hmode
  have hroute : RouteOfMode s route := hmode
  have hrow := fun row => hroute.bodyArrives_frameType hopen q row rv d
  have hstart := hroute.started hopen
  refine ⟨⟨_, hrow .dataAck, hstart _⟩, ⟨_, hrow .dataNoack, hstart _⟩, ⟨_, hrow .respAck, hstart _⟩,
    ⟨_, hrow .respNack, hstart _⟩, fun hft => ?_⟩
  rw [← packRspByte_eq]
  exact hroute.bodyArrives_reserved hopen hft q rv d

end Sys2Proof.Machine
end

-- ==== Proofs: the length of an encoding ====
section
/-! The length of a COBS encoding (R102): each block costs its code byte, and the closing block may cost one more. The
inductions follow the loop of `CobsEncode` (R101), the block being built counted with the bytes still to read. -/

namespace Sys2Proof.Machine

/-! ### The bounds -/

/-- Every terminator read and the closing block that is owed become a code byte. -/
theorem le_length_cobsEncodeFrom (block : Bytes) (finalZero : Bool) (p : Bytes) :
    block.length + p.length + finalZero.toNat ≤ (cobsEncodeFrom block finalZero p).length := by
  fun_induction cobsEncodeFrom block finalZero p with
  | case1 block finalZero hclose =>
    have := finalZero.toNat_le
    simpa using this
  | case2 block finalZero hclose =>
    obtain ⟨hblock, hnone⟩ : block = [] ∧ finalZero = false := by simpa using hclose
    simp [hblock, hnone]
  | case3 block finalZero rest ih =>
    have := finalZero.toNat_le
    simp only [List.length_cons, List.length_append, List.length_nil, Bool.toNat_true] at ih ⊢
    omega
  | case4 block finalZero b rest hb hfull ih =>
    have := finalZero.toNat_le
    simp only [List.length_cons, List.length_append, List.length_nil, Bool.toNat_false] at ih ⊢
    omega
  | case5 block finalZero b rest hb hfull ih =>
    simp only [List.length_cons, List.length_append, List.length_nil] at ih ⊢
    omega

/-- A block costs one code byte for at most 254 bytes read, and an empty payload costs the closing block. -/
theorem length_cobsEncodeFrom_le {block : Bytes} (hlen : block.length < 254) (finalZero : Bool) (p : Bytes) :
    (cobsEncodeFrom block finalZero p).length ≤
      block.length + p.length + max finalZero.toNat ((block.length + p.length + 253) / 254) := by
  fun_induction cobsEncodeFrom block finalZero p with
  | case1 block finalZero hclose =>
    have hcost : 0 < block.length ∨ finalZero.toNat = 1 := by simpa using hclose
    simp only [List.length_cons, List.length_nil]
    omega
  | case2 block finalZero hclose => simp
  | case3 block finalZero rest ih =>
    simp only [List.length_cons, List.length_append, List.length_nil, Bool.toNat_true] at ih ⊢
    omega
  | case4 block finalZero b rest hb hfull ih =>
    simp only [List.length_cons, List.length_append, List.length_nil, Bool.toNat_false] at hfull ih ⊢
    omega
  | case5 block finalZero b rest hb hfull ih =>
    simp only [List.length_cons, List.length_append, List.length_nil] at hfull ih ⊢
    omega

/-! ### The payloads that meet them -/

/-- Without a terminator every block but the last is full. -/
theorem length_cobsEncodeFrom_of_notMem {block : Bytes} (hlen : block.length < 254) (finalZero : Bool) {p : Bytes}
    (hzero : (0x00 : Byte) ∉ p) :
    (cobsEncodeFrom block finalZero p).length =
      block.length + p.length + max finalZero.toNat ((block.length + p.length + 253) / 254) := by
  fun_induction cobsEncodeFrom block finalZero p with
  | case1 block finalZero hclose =>
    have hcost : 0 < block.length ∨ finalZero.toNat = 1 := by simpa using hclose
    have := finalZero.toNat_le
    simp only [List.length_cons, List.length_nil]
    omega
  | case2 block finalZero hclose =>
    obtain ⟨hblock, hnone⟩ : block = [] ∧ finalZero = false := by simpa using hclose
    simp [hblock, hnone]
  | case3 block finalZero rest ih => simp at hzero
  | case4 block finalZero b rest hb hfull ih =>
    have hrest := ih (by simp) (List.not_mem_of_not_mem_cons hzero)
    have := finalZero.toNat_le
    simp only [List.length_cons, List.length_append, List.length_nil, Bool.toNat_false] at hfull hrest ⊢
    omega
  | case5 block finalZero b rest hb hfull ih =>
    have hlen' : (block ++ [b]).length < 254 := by simp at *; omega
    have hrest := ih hlen' (List.not_mem_of_not_mem_cons hzero)
    simp only [List.length_cons, List.length_append, List.length_nil] at hrest ⊢
    omega

/-- Where no run of non-zero bytes reaches 254 no block is full, and each code byte but one stands for a terminator. -/
theorem length_cobsEncodeFrom_of_runs {block p : Bytes} (hblock : (0x00 : Byte) ∉ block)
    (hruns : ∀ r : Bytes, r <:+: block ++ p → r.length = 254 → (0x00 : Byte) ∈ r) :
    (cobsEncodeFrom block true p).length = block.length + p.length + 1 := by
  induction p generalizing block with
  | nil => simp [cobsEncodeFrom]
  | cons b rest ih =>
    rw [cobsEncodeFrom]
    by_cases hb : b = 0x00
    · have hrest := ih (block := []) (by simp) fun r hr => hruns r (hr.trans ⟨block ++ [b], [], by simp⟩)
      rw [if_pos hb]
      simp only [List.length_cons, List.length_append, hrest, List.length_nil]
      omega
    · have hext : (0x00 : Byte) ∉ block ++ [b] := by simpa using ⟨hblock, fun h => hb h.symm⟩
      have hfull : (block ++ [b]).length ≠ 254 := fun hfull => hext (hruns _ ⟨[], rest, by simp⟩ hfull)
      rw [if_neg hb, if_neg hfull, ih hext (by simpa using hruns)]
      simp only [List.length_cons, List.length_append, List.length_nil]
      omega

/-- Settles O11: below 254 bytes the two bounds agree. -/
theorem cobsEncodedLength : Obligations.CobsEncodedLength := by
  intro p
  have hlow : p.length + 1 ≤ (cobsEncode p).length := by
    simpa [cobsEncode] using le_length_cobsEncodeFrom [] true p
  have hhigh : (cobsEncode p).length ≤ p.length + max 1 ((p.length + 253) / 254) := by
    simpa [cobsEncode] using length_cobsEncodeFrom_le (block := []) (by simp) true p
  refine ⟨⟨hlow, hhigh⟩, fun hshort => by omega, fun hruns => ?_, fun hzero => ?_⟩
  · simpa [cobsEncode] using length_cobsEncodeFrom_of_runs (block := []) (by simp) hruns
  · simpa [cobsEncode] using length_cobsEncodeFrom_of_notMem (block := []) (by simp) true hzero

end Sys2Proof.Machine
end

-- ==== Proofs: encoding what a segment stands for ====
section
/-! `COBS.ENC` against the block structure of R73: it gives a sequence of blocks back from what the blocks stand for,
unless an empty block closes the sequence behind a full one (R107). Then `COBS.ENC` and `FRM.PACK` as operations (R101,
R103, R108). -/

namespace Sys2Proof.Machine

/-! ### Encoding the data of one block -/

/-- Data that do not fill the block are added to it. -/
theorem cobsEncodeFrom_append {block d : Bytes} (hzero : (0x00 : Byte) ∉ d) (hlen : block.length + d.length < 254)
    (finalZero : Bool) (rest : Bytes) :
    cobsEncodeFrom block finalZero (d ++ rest) = cobsEncodeFrom (block ++ d) finalZero rest := by
  induction d generalizing block with
  | nil => simp
  | cons b d ih =>
    obtain ⟨hb, hd⟩ : (0x00 : Byte) ≠ b ∧ (0x00 : Byte) ∉ d := by simpa using hzero
    simp only [List.length_cons] at hlen
    have hfull : (block ++ [b]).length ≠ 254 := by simp; omega
    rw [List.cons_append, cobsEncodeFrom, if_neg hb.symm, if_neg hfull, ih hd (by simp; omega)]
    simp

/-- Data that fill the block close it with the code 0xFF, and no closing block is owed. -/
theorem cobsEncodeFrom_full {d : Bytes} (hzero : (0x00 : Byte) ∉ d) (hlen : d.length = 254) (finalZero : Bool)
    (rest : Bytes) : cobsEncodeFrom [] finalZero (d ++ rest) = 0xFF :: d ++ cobsEncodeFrom [] false rest := by
  have hne : d ≠ [] := List.ne_nil_of_length_pos (by omega)
  obtain ⟨init, b, rfl⟩ := (List.eq_nil_or_concat' d).resolve_left hne
  obtain ⟨hinit, hb⟩ : (0x00 : Byte) ∉ init ∧ (0x00 : Byte) ≠ b := by simpa using hzero
  have hshort : ([] : Bytes).length + init.length < 254 := by simp at hlen ⊢; omega
  rw [List.append_assoc, cobsEncodeFrom_append hinit hshort, List.singleton_append, List.nil_append, cobsEncodeFrom,
    if_neg hb.symm, if_pos hlen]
  rfl

section
variable {b : CobsBlock}

theorem CobsBlock.good.code (h : b.good) : cobsCode b.2 = b.1 := by
  rw [cobsCode, h.1, BitVec.ofNat_toNat, BitVec.setWidth_eq]

theorem CobsBlock.good.length_full (h : b.good) (hfull : b.1 = 0xFF) : b.2.length = 254 := by
  have hlength := h.1
  rw [hfull] at hlength
  exact Nat.succ_injective hlength

theorem CobsBlock.good.length_lt (h : b.good) (hne : b.1 ≠ 0xFF) : b.2.length < 254 := by
  have hlength := h.1
  have hcode : b.1.toNat ≠ 255 := fun he => hne (BitVec.eq_of_toNat_eq he)
  omega

/-- A block that is not full, ended by a terminator. -/
theorem CobsBlock.good.encode_zero (h : b.good) (hne : b.1 ≠ 0xFF) (finalZero : Bool) (rest : Bytes) :
    cobsEncodeFrom [] finalZero (b.2 ++ 0x00 :: rest) = b.1 :: b.2 ++ cobsEncodeFrom [] true rest := by
  rw [cobsEncodeFrom_append h.2 (by simpa using h.length_lt hne), cobsEncodeFrom, if_pos rfl, List.nil_append, h.code]
  rfl

/-- A block that is not full, at the end of the payload: it is written when it is owed or holds data. -/
theorem CobsBlock.good.encode_last (h : b.good) (hne : b.1 ≠ 0xFF) {finalZero : Bool}
    (hwritten : finalZero = true ∨ b.2 ≠ []) : cobsEncodeFrom [] finalZero b.2 = b.1 :: b.2 := by
  have hclose : (decide (0 < b.2.length) || finalZero) = true := by
    rcases hwritten with hfinal | hdata
    · simp [hfinal]
    · simp [List.length_pos_iff.2 hdata]
  have happend := cobsEncodeFrom_append h.2 (block := []) (by simpa using h.length_lt hne) finalZero []
  rw [List.append_nil, List.nil_append] at happend
  rw [happend, cobsEncodeFrom, if_pos hclose, h.code]

end

/-! ### Encoding a sequence of blocks -/

theorem blockBytes_cons (b : CobsBlock) (l : List CobsBlock) : blockBytes (b :: l) = b.1 :: b.2 ++ blockBytes l := by
  simp [blockBytes]

theorem blockMeaning_full {b : CobsBlock} (hfull : b.1 = 0xFF) (l : List CobsBlock) :
    blockMeaning (b :: l) = b.2 ++ blockMeaning l := by
  cases l <;> simp [blockMeaning, hfull]

theorem blockMeaning_zero {b : CobsBlock} (hne : b.1 ≠ 0xFF) {l : List CobsBlock} (hl : l ≠ []) :
    blockMeaning (b :: l) = b.2 ++ 0x00 :: blockMeaning l := by
  cases l with
  | nil => exact absurd rfl hl
  | cons c l =>
    rw [blockMeaning, if_neg hne]
    simp

/-- What the encoder can write at a block boundary: at least one block while the closing block is owed, and otherwise
anything but a lone empty block. -/
def Encodable (finalZero : Bool) (l : List CobsBlock) : Prop :=
  if finalZero then l ≠ [] else l ≠ [(0x01, [])]

/-- The encoder at a block boundary writes the blocks its input stands for, unless an empty block closes them behind a
full one. -/
theorem cobsEncodeFrom_blockMeaning {l : List CobsBlock} (h : ∀ b ∈ l, b.good)
    (hend : ∀ d : Bytes, ¬ [((0xFF : Byte), d), (0x01, [])] <:+ l) {finalZero : Bool}
    (hstart : Encodable finalZero l) : cobsEncodeFrom [] finalZero (blockMeaning l) = blockBytes l := by
  induction l generalizing finalZero with
  | nil =>
    cases finalZero with
    | true => exact absurd rfl hstart
    | false => rfl
  | cons b l ih =>
    obtain ⟨hb, hl⟩ := List.forall_mem_cons.1 h
    have hendl : ∀ d : Bytes, ¬ [((0xFF : Byte), d), (0x01, [])] <:+ l :=
      fun d hsuffix => hend d (hsuffix.trans (List.suffix_cons b l))
    rw [blockBytes_cons]
    by_cases hfull : b.1 = 0xFF
    · have hnext : Encodable false l := by
        rintro rfl
        exact hend b.2 (by rw [← hfull])
      rw [blockMeaning_full hfull, cobsEncodeFrom_full hb.2 (hb.length_full hfull), ih hl hendl hnext, hfull]
    · by_cases hlast : l = []
      · subst hlast
        have hwritten : finalZero = true ∨ b.2 ≠ [] := by
          cases finalZero with
          | true => exact .inl rfl
          | false =>
            have hcode : b.2 = [] → b.1 = 0x01 := fun hempty => by rw [← hb.code, hempty]; rfl
            exact .inr fun hempty => hstart (congrArg (· :: []) (Prod.ext (hcode hempty) hempty))
        exact (hb.encode_last hfull hwritten).trans (by simp [blockBytes])
      · rw [blockMeaning_zero hfull hlast, hb.encode_zero hfull, ih hl hendl (show Encodable true l from hlast)]

/-- Settles O13: what decodes is a sequence of blocks, and the encoder writes these blocks. -/
theorem cobsRoundTrip : Obligations.CobsRoundTrip := by
  refine ⟨cobsDecode_cobsEncode, fun x p hdecode hexcept => ?_⟩
  obtain ⟨l, hne, hl, rfl, rfl⟩ := cobsDecode_ok hdecode
  refine cobsEncodeFrom_blockMeaning hl (fun d hsuffix => hexcept ?_) (show Encodable true l from hne)
  obtain ⟨m, rfl⟩ := hsuffix
  refine ⟨m, d, fun b hb => hl b (List.mem_append_left _ hb), hl _ (by simp), ?_⟩
  simp [blockBytes]

/-! ### `COBS.ENC` and `FRM.PACK` -/

/-- Settles O9: the two operations answer with `reply`, and the encoding holds no terminator. -/
theorem cobsEncodeAndPackResults : Obligations.CobsEncodeAndPackResults := by
  intro p s hmax
  have hzero := zero_notMem_cobsEncode p
  refine ⟨withPayload_eq hmax _, hzero, withPayload_eq hmax _, ?_⟩
  rw [List.count_append, List.count_eq_zero.2 hzero]
  rfl

end Sys2Proof.Machine
end

-- ==== Proofs: the segments of a stream ====
section
/-! `FRM.UNPACK` (R110, R111): the segments it cuts are those of the stream, whatever the chunks were; and the reception
of one segment that cannot be decoded (R106, R241, R243). -/

namespace Sys2Proof.Machine

/-! ### The segments -/

theorem zero_notMem_cutSegments {segment : Bytes} (h : (0x00 : Byte) ∉ segment) (b : Bytes) :
    ∀ x ∈ (cutSegments segment b).1, (0x00 : Byte) ∉ x := by
  fun_induction cutSegments segment b with
  | case1 segment => simp
  | case2 segment rest ih => exact List.forall_mem_cons.2 ⟨h, ih (by simp)⟩
  | case3 segment x rest hx ih =>
    exact ih (by simpa using ⟨h, fun hz : (0x00 : Byte) = x => hx hz.symm⟩)

/-- The segments with their terminators, then the rest, are the stream. -/
theorem cutSegments_join (segment b : Bytes) :
    (cutSegments segment b).1.flatMap (fun x => x ++ [0x00]) ++ (cutSegments segment b).2 = segment ++ b := by
  fun_induction cutSegments segment b with
  | case1 segment => simp
  | case2 segment rest ih => simp at ih; simp [ih, delim]
  | case3 segment x rest hx ih => simpa using ih

/-! ### `FRM.UNPACK` -/

theorem exec_frmUnpack_framed {s : State} (hopen : s.rxClosed = false) (hframing : s.cfg.framingEn = true)
    {chunk : Bytes} (hcap : s.WithinCap (afterLastZero (s.carry ++ chunk))) :
    exec (.frmUnpack chunk) s = .next ({ s with carry := afterLastZero (s.carry ++ chunk) }.emitting
      [.returned (.candidates (frameUnpack s.carry chunk).1)]) := by
  show execFrmUnpack chunk s = _
  rw [execFrmUnpack, whileOpen_open hopen, if_pos hframing, unpackChunk_fits hcap, frameUnpack_carry]
  rfl

/-- Settles O14: the segments are those of `cutSegments`. -/
theorem frameUnpackResult : Obligations.FrameUnpackResult := by
  intro chunk s hopen hframing hcap
  refine ⟨(cutSegments [] (s.carry ++ chunk)).1, zero_notMem_cutSegments (by simp) _, ?_,
    exec_frmUnpack_framed hopen hframing hcap⟩
  have hrest := cutSegments_rest (segment := []) (by simp) (s.carry ++ chunk)
  rw [List.nil_append] at hrest
  rw [← hrest, cutSegments_join, List.nil_append]

/-! ### Any chunking -/

theorem frameUnpack_nil {carry : Bytes} (h : (0x00 : Byte) ∉ carry) : frameUnpack carry [] = ([], carry) := by
  have hcut := cutSegments_append_notMem [] h []
  simp only [frameUnpack, hcut]
  rfl

/-- A series of chunks is unpacked as their concatenation. -/
theorem unpackChunks_eq_flatten {carry : Bytes} (h : (0x00 : Byte) ∉ carry) (cs : List Bytes) :
    unpackChunks carry cs = frameUnpack carry cs.flatten := by
  induction cs generalizing carry with
  | nil => exact (frameUnpack_nil h).symm
  | cons c cs ih =>
    have hcarry : (0x00 : Byte) ∉ (frameUnpack carry c).2 := by
      rw [frameUnpack_carry]
      exact zero_notMem_afterLastZero _
    rw [List.flatten_cons, frameUnpack_append, ← ih hcarry]
    rfl

/-- Frames one after another are unpacked into their payloads. -/
theorem frameUnpack_frames (ps : List Bytes) :
    frameUnpack [] (ps.flatMap framePack) = (ps.map Candidate.ok, []) := by
  induction ps with
  | nil => rfl
  | cons p ps ih =>
    have hfirst : frameUnpack [] (framePack p) = ([.ok p], []) := frameUnpack_frame p
    rw [List.flatMap_cons, frameUnpack_append, hfirst, ih]
    rfl

/-- Settles O15: a series of chunks is its concatenation. -/
theorem reassemblyIgnoresChunking : Obligations.ReassemblyIgnoresChunking := by
  refine ⟨fun carry chunk => ?_, fun carry cs ds hcarry hsame => ?_, fun ps cs hframes => ?_⟩
  · rw [frameUnpack_carry]
    exact zero_notMem_afterLastZero _
  · rw [unpackChunks_eq_flatten hcarry, unpackChunks_eq_flatten hcarry, hsame]
  · rw [unpackChunks_eq_flatten (by simp), hframes, frameUnpack_frames]

/-! ### One segment received -/

/-- A segment with its terminator, received with nothing carried over, is one candidate. -/
theorem frameUnpack_segment {x : Bytes} (h : (0x00 : Byte) ∉ x) :
    frameUnpack [] (x ++ [0x00]) = ([segmentResult x], []) := by
  have hcut : cutSegments [] ([] ++ (x ++ [0x00])) = ([x], []) := cutSegments_terminated [] h
  simp only [frameUnpack, hcut, List.map_cons, List.map_nil]

theorem exec_rxChunk_badSegment {x : Bytes} {s : State} (hopen : s.rxClosed = false) (hframing : s.cfg.framingEn = true)
    (hcarry : s.carry = []) (hzero : (0x00 : Byte) ∉ x) {reason : FramingReason} (h : cobsDecode x = .error reason) :
    exec (.rxChunk (x ++ [0x00])) s = .next (s.emitting [.event (.discard (.framing reason) x)]) := by
  have hunpack : frameUnpack s.carry (x ++ [0x00]) = ([.err reason x], []) := by
    rw [hcarry, frameUnpack_segment hzero, segmentResult, h]
  have hcap : s.WithinCap (afterLastZero (s.carry ++ (x ++ [0x00]))) := by
    rw [← frameUnpack_carry, hunpack]
    exact fun cap _ => Nat.zero_le cap
  rw [exec_rxChunk_framed hopen hframing hcap, hunpack, ← hcarry]
  rfl

/-- Settles O43: the empty segment and the segment that is no sequence of blocks fail to decode. -/
theorem framingErrorDiscards : Obligations.FramingErrorDiscards := by
  intro x s hopen hframing hcarry hzero
  refine ⟨fun hempty => ?_, fun hne hblocks => ?_⟩
  · exact exec_rxChunk_badSegment hopen hframing hcarry hzero (by rw [hempty]; rfl)
  · exact exec_rxChunk_badSegment hopen hframing hcarry hzero (cobsDecode_truncated hzero hne hblocks)

end Sys2Proof.Machine
end

-- ==== Proofs: the checksum is linear ====
section
/-! The register of R121 is a linear map over GF(2): a difference in a message goes through the register by itself,
whatever else the message holds (R122, R128). -/

namespace Sys2Proof.Machine

/-! ### One shift -/

/-- A shift multiplies by x and subtracts the polynomial when the bit that leaves the top is set (R121). -/
theorem crcShift_eq (c : BitVec 16) : crcShift c = (c <<< 1) ^^^ (if c.getLsbD 15 then crcPoly else 0) := by
  unfold crcShift
  split
  · rfl
  · exact BitVec.xor_zero.symm

theorem crcShift_xor (a b : BitVec 16) : crcShift (a ^^^ b) = crcShift a ^^^ crcShift b := by
  have hpoly : (if (a.getLsbD 15 ^^ b.getLsbD 15) then crcPoly else 0) =
      (if a.getLsbD 15 then crcPoly else 0) ^^^ (if b.getLsbD 15 then crcPoly else 0) := by
    cases a.getLsbD 15 <;> cases b.getLsbD 15 <;> rfl
  rw [crcShift_eq, crcShift_eq, crcShift_eq, BitVec.getLsbD_xor, hpoly, BitVec.shiftLeft_xor_distrib]
  ac_rfl

theorem crcShift_zero : crcShift 0 = 0 := rfl

/-- The lowest bit after a shift tells whether the polynomial, which has the term 1, was subtracted. -/
theorem crcShift_getLsbD_zero (c : BitVec 16) : (crcShift c).getLsbD 0 = c.getLsbD 15 := by
  rw [crcShift_eq, BitVec.getLsbD_xor, BitVec.getLsbD_shiftLeft]
  cases c.getLsbD 15 <;> rfl

/-- No shift loses anything: the bit that leaves the top comes back at the bottom. -/
theorem crcShift_injective : Function.Injective crcShift := by
  intro a b h
  have htop : a.getLsbD 15 = b.getLsbD 15 := by rw [← crcShift_getLsbD_zero, h, crcShift_getLsbD_zero]
  have hrest : a <<< 1 = b <<< 1 := by
    rw [crcShift_eq, crcShift_eq, htop] at h
    exact (BitVec.xor_left_inj _).1 h
  apply BitVec.eq_of_getLsbD_eq
  intro i hi
  by_cases h15 : i = 15
  · rw [h15, htop]
  · have hbit := congrArg (fun w => w.getLsbD (i + 1)) hrest
    simpa [show i + 1 < 16 by omega, -BitVec.getLsbD_eq_getElem] using hbit

/-! ### Many shifts -/

theorem crcShift_iterate_xor (n : Nat) (a b : BitVec 16) :
    crcShift^[n] (a ^^^ b) = crcShift^[n] a ^^^ crcShift^[n] b := by
  induction n generalizing a b with
  | zero => rfl
  | succ n ih => rw [Function.iterate_succ_apply, crcShift_xor, ih]; rfl

theorem crcShift_iterate_zero (n : Nat) : crcShift^[n] 0 = 0 := Function.iterate_fixed crcShift_zero n

theorem crcShift_iterate_ne_zero (n : Nat) {e : BitVec 16} (h : e ≠ 0) : crcShift^[n] e ≠ 0 := by
  rw [← crcShift_iterate_zero n]
  exact (crcShift_injective.iterate n).ne h

/-- A byte enters at the top of the register, and eight shifts follow (R121). -/
theorem crcByte_eq_iterate (c : BitVec 16) (b : Byte) : crcByte c b = crcShift^[8] (c ^^^ (b.setWidth 16 <<< 8)) := rfl

/-! ### Differences in a message -/

theorem crc16_append (a b : Bytes) : crc16 (a ++ b) = b.foldl crcByte (crc16 a) := List.foldl_append

/-- A difference in the register before a byte. -/
theorem crcByte_xor_register (c e : BitVec 16) (b : Byte) : crcByte (c ^^^ e) b = crcByte c b ^^^ crcShift^[8] e := by
  rw [crcByte_eq_iterate, crcByte_eq_iterate, ← crcShift_iterate_xor]
  congr 1
  ac_rfl

/-- A difference in the byte itself. -/
theorem crcByte_xor_byte (c : BitVec 16) (b e : Byte) :
    crcByte c (b ^^^ e) = crcByte c b ^^^ crcShift^[8] (e.setWidth 16 <<< 8) := by
  rw [crcByte_eq_iterate, crcByte_eq_iterate, ← crcShift_iterate_xor, BitVec.setWidth_xor, BitVec.shiftLeft_xor_distrib,
    BitVec.xor_assoc]

/-- A difference in the register before a message. -/
theorem foldl_crcByte_xor (m : Bytes) (c e : BitVec 16) :
    m.foldl crcByte (c ^^^ e) = m.foldl crcByte c ^^^ crcShift^[8 * m.length] e := by
  induction m generalizing c e with
  | nil => rfl
  | cons b m ih =>
    rw [List.foldl_cons, List.foldl_cons, crcByte_xor_register, ih, ← Function.iterate_add_apply, List.length_cons,
      Nat.mul_succ]

/-- A register that holds zero stays zero while zero bytes are fed to it (R128 (c)). -/
theorem foldl_crcByte_zeros (n : Nat) : (List.replicate n (0x00 : Byte)).foldl crcByte 0 = 0 := by
  induction n with
  | zero => rfl
  | succ n ih => exact ih

/-- An inverted bit is a difference once it has entered at the top of the register. -/
theorem enteredBit_ne_zero {bit : Nat} (h : bit < 8) : (1#8 <<< bit).setWidth 16 <<< 8 ≠ 0 := by
  intro hzero
  have hbit := congrArg (fun w => w.getLsbD (bit + 8)) hzero
  simp [h, show bit + 8 < 16 by omega] at hbit

/-- An inverted bit changes the checksum, wherever it stands (R128 (a)). -/
theorem crc16_flipBit_ne {x : Bytes} {index bit : Nat} (hindex : index < x.length) (hbit : bit < 8) :
    crc16 (flipBit x index bit) ≠ crc16 x := by
  obtain ⟨a, b, m, hx, -, hflip⟩ := List.exists_of_modify (fun b : Byte => b ^^^ (1#8 <<< bit)) hindex
  have hdifference : crc16 (flipBit x index bit) =
      crc16 x ^^^ crcShift^[8 * m.length] (crcShift^[8] ((1#8 <<< bit).setWidth 16 <<< 8)) := by
    rw [flipBit, hflip, hx, crc16_append, crc16_append, List.foldl_cons, List.foldl_cons, crcByte_xor_byte,
      foldl_crcByte_xor]
  rw [hdifference, Ne, xor_left_eq_self_iff]
  exact crcShift_iterate_ne_zero _ (crcShift_iterate_ne_zero _ (enteredBit_ne_zero hbit))

end Sys2Proof.Machine
end

-- ==== Proofs: the checksum as a remainder ====
section
/-! The shift register computes the remainder of R122. Both sides are taken bit by bit: the register of R121 meets a
message bit as it leaves the top, the long division meets it 16 bits earlier, at the bottom; the complemented bits are
the register's initial value. -/

namespace Sys2Proof.Machine

/-! ### The register bit by bit -/

/-- One message bit meets the bit that leaves the top of the register (R121, R122). -/
def crcBit (c : BitVec 16) (bit : Bool) : BitVec 16 := crcShift c ^^^ (if bit then crcPoly else 0)

/-- A word added to the register before a shift: its top bit is taken in, the rest moves up. -/
theorem crcShift_xor_word (c w : BitVec 16) : crcShift (c ^^^ w) = crcBit c (w.getLsbD 15) ^^^ (w <<< 1) := by
  rw [crcShift_xor, crcShift_eq w, crcBit, BitVec.xor_assoc, BitVec.xor_comm (w <<< 1)]

/-- The first bits of a word added to the register, taken in one by one. -/
theorem crcShift_iterate_xor_word (c w : BitVec 16) {n : Nat} (h : n ≤ 16) :
    crcShift^[n] (c ^^^ w) = ((List.range n).map fun i => w.getLsbD (15 - i)).foldl crcBit c ^^^ (w <<< n) := by
  induction n with
  | zero => simp
  | succ n ih =>
    have htop : (w <<< n).getLsbD 15 = w.getLsbD (15 - n) := by
      rw [BitVec.getLsbD_shiftLeft]
      simp [show ¬15 < n by omega]
    rw [Function.iterate_succ_apply', ih (by omega), crcShift_xor_word, htop, ← BitVec.shiftLeft_add, List.range_succ,
      List.map_append, List.foldl_append]
    rfl

theorem crcByte_eq_foldl (c : BitVec 16) (b : Byte) :
    crcByte c b = ((List.range 8).map fun i => b.getLsbD (7 - i)).foldl crcBit c := by
  have hbits : ((List.range 8).map fun i => (b.setWidth 16 <<< 8).getLsbD (15 - i)) =
      (List.range 8).map fun i => b.getLsbD (7 - i) := by
    refine List.map_congr_left fun i hi => ?_
    have hi8 : i < 8 := List.mem_range.1 hi
    rw [BitVec.getLsbD_shiftLeft, BitVec.getLsbD_setWidth, show 15 - i - 8 = 7 - i by omega]
    simp [show 15 - i < 16 by omega, show ¬15 - i < 8 by omega, show 7 - i < 16 by omega]
  have hout : b.setWidth 16 <<< 8 <<< 8 = 0 := by
    rw [← BitVec.shiftLeft_add]
    exact BitVec.shiftLeft_eq_zero (by omega)
  rw [crcByte_eq_iterate, crcShift_iterate_xor_word c _ (by omega), hbits, hout, LawfulXor.xor_zero]

theorem crc16_eq_foldl (m : Bytes) : crc16 m = (messageBits m).foldl crcBit crcInit := by
  rw [messageBits, List.foldl_flatMap]
  simp only [← crcByte_eq_foldl]
  rfl

/-! ### The long division -/

/-- A digit of the division is a shift with the next bit brought down. -/
theorem gf2Digit_eq (r : BitVec 16) (bit : Bool) : gf2Digit r bit = crcShift r ^^^ (if bit then 1 else 0) := by
  have hbring : (r <<< 1) ||| (BitVec.ofBool bit).setWidth 16 = (r <<< 1) ^^^ (if bit then 1 else 0) := by
    apply BitVec.eq_of_getLsbD_eq
    intro i hi
    cases bit <;> cases i <;> simp
  rw [gf2Digit, hbring, crcShift]
  split
  · show _ ^^^ crcPoly = _
    ac_rfl
  · rfl

/-- A difference in the remainder so far. -/
theorem foldl_gf2Digit_xor (l : List Bool) (r e : BitVec 16) :
    l.foldl gf2Digit (r ^^^ e) = l.foldl gf2Digit r ^^^ crcShift^[l.length] e := by
  induction l generalizing r e with
  | nil => rfl
  | cons bit l ih =>
    have hdigit : gf2Digit (r ^^^ e) bit = gf2Digit r bit ^^^ crcShift e := by
      rw [gf2Digit_eq, gf2Digit_eq, crcShift_xor]
      ac_rfl
    rw [List.foldl_cons, List.foldl_cons, hdigit, ih]
    rfl

/-- Zeros brought down multiply by a power of x. -/
theorem foldl_gf2Digit_zeros (n : Nat) (r : BitVec 16) :
    (List.replicate n false).foldl gf2Digit r = crcShift^[n] r := by
  induction n generalizing r with
  | zero => rfl
  | succ n ih => rw [List.replicate_succ, List.foldl_cons, gf2Digit_eq, ih]; simp

/-- Complemented bits add the remainder of as many ones. -/
theorem foldl_gf2Digit_not (l : List Bool) (r e : BitVec 16) :
    (l.map fun b => !b).foldl gf2Digit (r ^^^ e) =
      l.foldl gf2Digit r ^^^ (List.replicate l.length true).foldl gf2Digit e := by
  induction l generalizing r e with
  | nil => rfl
  | cons bit l ih =>
    have hdigit : gf2Digit (r ^^^ e) (!bit) = gf2Digit r bit ^^^ gf2Digit e true := by
      have hnot : (if !bit then 1 else 0 : BitVec 16) = (if bit then 1 else 0) ^^^ (if true then 1 else 0) := by
        cases bit <;> rfl
      rw [gf2Digit_eq, gf2Digit_eq, gf2Digit_eq, crcShift_xor, hnot]
      ac_rfl
    rw [List.map_cons, List.foldl_cons, hdigit, ih]
    rfl

/-- The ones that fill the register are its initial value (R122). -/
theorem foldl_gf2Digit_ones : (List.replicate 16 true).foldl gf2Digit 0 = crcInit := by decide +kernel

/-- The first 16 bits complemented add the initial value, multiplied by x once for each bit after them. -/
theorem gf2Remainder_complementFirst {l : List Bool} (h : 16 ≤ l.length) :
    gf2Remainder (complementFirst 16 l) = gf2Remainder l ^^^ crcShift^[l.length - 16] crcInit := by
  have hfirst : ((l.take 16).map fun b => !b).foldl gf2Digit 0 = (l.take 16).foldl gf2Digit 0 ^^^ crcInit := by
    have hones := foldl_gf2Digit_not (l.take 16) 0 0
    rwa [List.length_take_of_le h, LawfulXor.xor_zero, foldl_gf2Digit_ones] at hones
  calc gf2Remainder (complementFirst 16 l)
      = (l.drop 16).foldl gf2Digit ((l.take 16).foldl gf2Digit 0 ^^^ crcInit) := by
        rw [gf2Remainder, complementFirst, List.foldl_append, hfirst]
    _ = (l.drop 16).foldl gf2Digit ((l.take 16).foldl gf2Digit 0) ^^^ crcShift^[l.length - 16] crcInit := by
        rw [foldl_gf2Digit_xor, List.length_drop]
    _ = gf2Remainder l ^^^ crcShift^[l.length - 16] crcInit := by
        rw [← List.foldl_append, List.take_append_drop, gf2Remainder]

/-! ### The register against the division (R122) -/

/-- The register that takes a bit in at the top is 16 shifts ahead of the division that takes it in at the bottom. -/
theorem foldl_crcBit_eq (l : List Bool) (r c : BitVec 16) :
    l.foldl crcBit (crcShift^[16] r ^^^ c) = crcShift^[16] (l.foldl gf2Digit r) ^^^ crcShift^[l.length] c := by
  induction l generalizing r c with
  | nil => rfl
  | cons bit l ih =>
    have hpoly : crcShift^[16] (if bit then 1 else 0) = if bit then crcPoly else 0 := by cases bit <;> decide +kernel
    have hstep : crcBit (crcShift^[16] r ^^^ c) bit = crcShift^[16] (gf2Digit r bit) ^^^ crcShift c := by
      rw [crcBit, gf2Digit_eq, crcShift_xor, crcShift_iterate_xor, hpoly, ← Function.iterate_succ_apply' crcShift,
        Function.iterate_succ_apply]
      ac_rfl
    rw [List.foldl_cons, hstep, ih]
    rfl

/-- Settles O17: the division of the message bits with 16 zeros is the register from 0, and the complemented bits add
what the register makes of its initial value. -/
theorem crcIsPolynomialRemainder : Obligations.CrcIsPolynomialRemainder := by
  intro m
  have hregister := foldl_crcBit_eq (messageBits m) 0 crcInit
  rw [crcShift_iterate_zero, zero_xor] at hregister
  rw [crc16_eq_foldl, hregister, gf2Remainder_complementFirst (by simp), List.length_append, List.length_replicate,
    Nat.add_sub_cancel, gf2Remainder, List.foldl_append, foldl_gf2Digit_zeros]

end Sys2Proof.Machine
end

-- ==== Proofs: the verification codec ====
section
/-! CRC.GEN, VER.PACK and VER.UNPACK: the residue of a unit, what the two tests of VER.UNPACK let through, and the exact
next states (R121 to R128). -/

namespace Sys2Proof.Machine

/-! ### The residue of a unit (R125, R128) -/

theorem length_verPack (p : Bytes) : (verPack p).length = p.length + 2 := by simp [verPack, be16]

/-- Settles O18: the checksum's two bytes cancel the register. -/
theorem residueIsZero : Obligations.ResidueIsZero := crc16_be16

/-! ### `VerUnpack` by its outcomes (R126) -/

section
variable {x : Bytes}

theorem verUnpack_short (h : x.length < 2) : verUnpack x = .error .short := if_pos h

theorem verUnpack_residue (hlength : 2 ≤ x.length) (h : crc16 x ≠ 0) : verUnpack x = .error .residue := by
  rw [verUnpack, if_neg (by omega), if_pos h]

theorem verUnpack_residueZero (hlength : 2 ≤ x.length) (h : crc16 x = 0) :
    verUnpack x = .ok (x.take (x.length - 2)) := by
  rw [verUnpack, if_neg (by omega), if_neg (not_not_intro h)]

end

/-- Settles O21: the residue of a unit is zero, and the inverted bit changes it. -/
theorem singleBitFlipDetected : Obligations.SingleBitFlipDetected := by
  intro p index bit hindex hbit
  refine verUnpack_residue ?_ ?_
  · rw [flipBit, List.length_modify, length_verPack]
    omega
  · have hchanged := crc16_flipBit_ne hindex hbit
    rwa [residueIsZero p] at hchanged

/-- Settles O22: the zero residue stays zero, and the two bytes cut off leave the payload in front. -/
theorem appendedZerosPass : Obligations.AppendedZerosPass := by
  intro p n
  have hlength : (verPack p ++ List.replicate n 0x00).length - 2 = p.length + n := by
    rw [List.length_append, List.length_replicate, length_verPack]
    omega
  have hresidue : crc16 (verPack p ++ List.replicate n 0x00) = 0 := by
    rw [crc16_append, residueIsZero p]
    exact foldl_crcByte_zeros n
  refine ⟨(verPack p ++ List.replicate n 0x00).take (p.length + n), ?_, ?_, ?_⟩
  · rw [verUnpack_residueZero (by rw [List.length_append, length_verPack]; omega) hresidue, hlength]
  · rw [List.length_take]
    omega
  · rw [verPack, List.append_assoc, List.take_length_add_append]
    exact List.prefix_append _ _

/-! ### The operations -/

section
variable {x : Bytes} {s : State}

theorem exec_crcGen (hmax : s.WithinMax x) :
    exec (.crcGen x) s = .next (s.emitting [.result .ok (.crc (crc16 x))]) :=
  withPayload_eq hmax _

theorem exec_verPack (hmax : s.WithinMax x) :
    exec (.verPack x) s = .next (s.emitting [.result .ok (.bytes (verPack x))]) :=
  withPayload_eq hmax _

theorem exec_verUnpack_ok (hmax : s.WithinMax x) {p : Bytes} (h : verUnpack x = .ok p) :
    exec (.verUnpack x) s = .next (s.emitting [.result .ok (.bytes p)]) := by
  show execVerUnpack x s = _
  rw [execVerUnpack, withPayload_eq hmax, h]
  rfl

theorem exec_verUnpack_error (hmax : s.WithinMax x) {reason : ChecksumReason} (h : verUnpack x = .error reason) :
    exec (.verUnpack x) s = .next (s.emitting [.result (.error (.checksum reason)) .none]) := by
  show execVerUnpack x s = _
  rw [execVerUnpack, withPayload_eq hmax, h]
  rfl

end

/-- Settles O19: each operation by its own outcome, and the round trip of the codec (R127). -/
theorem verifyRoundTrip : Obligations.VerifyRoundTrip := fun p _ hp hunit =>
  ⟨exec_verPack hp, exec_verUnpack_ok hunit (verUnpack_verPack p)⟩

/-- The known answers of R123. -/
theorem crc16_knownAnswers :
    crc16 [0x31, 0x32, 0x33, 0x34, 0x35, 0x36, 0x37, 0x38, 0x39] = 0xAEE7 ∧ crc16 [] = 0xFFFF ∧
    crc16 [0x00] = 0xFD02 ∧ crc16 [0x01] = 0x7D07 ∧ crc16 [0xFF] = 0xFF00 ∧ crc16 [0xFF, 0xFF] = 0x0000 ∧
    crc16 [0x00, 0x00] = 0x800D ∧ crc16 [0x41] = 0xFC84 ∧ crc16 [0x68, 0x65, 0x6C, 0x6C, 0x6F] = 0x1CC5 := by
  decide +kernel

/-- Settles O16. -/
theorem crcGenResult : Obligations.CrcGenResult := ⟨fun _ _ => exec_crcGen, crc16_knownAnswers⟩

/-- Settles O20: the tests of R126 in their order. -/
theorem verUnpackOutcomes : Obligations.VerUnpackOutcomes := by
  refine ⟨fun x => rfl, fun x s hmax => ?_⟩
  split
  next hshort => exact exec_verUnpack_error hmax (verUnpack_short hshort)
  next hlength =>
    have hlong : 2 ≤ x.length := Nat.le_of_not_lt hlength
    split
    next hresidue => exact exec_verUnpack_ok hmax (verUnpack_residueZero hlong hresidue)
    next hresidue => exact exec_verUnpack_error hmax (verUnpack_residue hlong hresidue)

end Sys2Proof.Machine
end

-- ==== Proofs: the header marshaller ====
section
/-! RT.PACK, RT.UNPACK, RSP.PACK and RSP.UNPACK: the fields of a header byte by arithmetic, what the tests of each codec
let through, and the exact next states (R135 to R147). -/

namespace Sys2Proof.Machine

/-! ### The fields of the header bytes (R74, R76, R89) -/

/-- A field of a routing header byte is a quotient, kept to the field's width. -/
theorem unpackRtHeader_eq (h : Byte) :
    unpackRtHeader h = ⟨BitVec.ofNat 2 (h.toNat / 64), BitVec.ofNat 4 (h.toNat / 4), BitVec.ofNat 1 (h.toNat / 2),
      BitVec.ofNat 1 h.toNat⟩ := by
  simp [unpackRtHeader, BitVec.extractLsb', Nat.shiftRight_eq_div_pow]

theorem unpackRtHeader_version_toNat (h : Byte) : (unpackRtHeader h).version.toNat = h.toNat / 64 := by
  rw [unpackRtHeader_eq, BitVec.toNat_ofNat]
  omega

theorem unpackRtHeader_channel_toNat (h : Byte) : (unpackRtHeader h).channel.toNat = h.toNat / 4 % 16 := by
  rw [unpackRtHeader_eq, BitVec.toNat_ofNat]

theorem rspFrameType_toNat (b1 : Byte) : (rspFrameType b1).toNat = b1.toNat / 16 := by
  rw [rspFrameType, BitVec.extractLsb'_toNat, Nat.shiftRight_eq_div_pow]
  omega

theorem rspReserved_toNat (b1 : Byte) : (rspReserved b1).toNat = b1.toNat % 16 := by
  rw [rspReserved, BitVec.extractLsb'_toNat, Nat.shiftRight_zero]

/-- The two fields make up byte 1 again. -/
theorem packRspByte_fields (b1 : Byte) : packRspByte (rspFrameType b1) (rspReserved b1) = b1 := by
  apply BitVec.eq_of_toNat_eq
  rw [packRspByte_toNat, rspFrameType_toNat, rspReserved_toNat, Nat.div_add_mod]

/-- A field widened to the byte it is returned in. -/
theorem setWidth_eq_ofNat {w n : Nat} {x : BitVec w} (h : x.toNat = n) : x.setWidth 8 = BitVec.ofNat 8 n := by
  rw [← h, BitVec.ofNat_toNat]

/-- The codes 0 to 3 each name a frame type (R77). -/
theorem exists_frameTypeCode {code : BitVec 4} (h : code.toNat ≤ 3) : ∃ type, frameTypeCode type = code := by
  obtain rfl | rfl | rfl | rfl : code = 0 ∨ code = 1 ∨ code = 2 ∨ code = 3 := by bv_omega
  · exact ⟨.dataAck, rfl⟩
  · exact ⟨.dataNoack, rfl⟩
  · exact ⟨.respAck, rfl⟩
  · exact ⟨.respNack, rfl⟩

/-! ### The codecs by their outcomes (R136, R139, R143, R146) -/

theorem rtPack_legal {ch : Nat} (h : ch ≤ 15) (v : BitVec 2) (p : Bytes) (rr : BitVec 1) :
    rtPack v p ch rr = .ok (packRtHeader ⟨v, BitVec.ofNat 4 ch, rr, 0⟩ :: p) := by
  rw [rtPack, channelOf, if_neg (Nat.not_lt_of_le h)]
  rfl

/-- The byte a legal channel is packed into (R141). -/
theorem packRtHeader_legal {ch : Nat} (h : ch ≤ 15) (v : BitVec 2) (rr : BitVec 1) :
    packRtHeader ⟨v, BitVec.ofNat 4 ch, rr, 0⟩ = BitVec.ofNat 8 (64 * v.toNat + 4 * ch + 2 * rr.toNat) := by
  apply BitVec.eq_of_toNat_eq
  simp only [packRtHeader_toNat, BitVec.ofNat_eq_ofNat, BitVec.toNat_ofNat]
  omega

theorem rspPack_reserved {ft : BitVec 8} (h : 3 < ft.toNat) (q : SeqNo) (p : Bytes) :
    rspPack q ft p = .error (.contract .frameTypeRange) := if_pos h

theorem rspPack_legal {ft : BitVec 8} (h : ft.toNat ≤ 3) (q : SeqNo) (p : Bytes) :
    rspPack q ft p = .ok (q :: packRspByte (ft.setWidth 4) 0 :: p) := if_neg (Nat.not_lt_of_le h)

/-- A legal frame type fits the 4-bit field. -/
theorem toNat_setWidth_frameType {ft : BitVec 8} (h : ft.toNat ≤ 3) : (ft.setWidth 4).toNat = ft.toNat := by
  rw [BitVec.toNat_setWidth, Nat.mod_eq_of_lt (by omega)]

theorem rspUnpack_short {x : Bytes} (h : x.length < 2) : rspUnpack x = .error (.malformed .shortHeader) := by
  match x, h with
  | [], _ => rfl
  | [_], _ => rfl

/-- A byte with a code above 3 is refused, whatever its reserved bits are (R79, R146). -/
theorem rspUnpack_badFrameType {b1 : Byte} (h : 3 < b1.toNat / 16) (q : SeqNo) (d : Bytes) :
    rspUnpack (q :: b1 :: d) = .error (.malformed .badFrameType) := by
  rw [← packRspByte_fields b1]
  exact rspUnpack_reserved (by rwa [rspFrameType_toNat]) q _ d

/-- A byte with a code up to 3 is accepted, and its reserved bits are returned (R78, R146). -/
theorem rspUnpack_legal {b1 : Byte} (h : b1.toNat / 16 ≤ 3) (q : SeqNo) (d : Bytes) :
    ∃ type, frameTypeCode type = rspFrameType b1 ∧ rspUnpack (q :: b1 :: d) = .ok ⟨q, type, rspReserved b1, d⟩ := by
  obtain ⟨type, htype⟩ := exists_frameTypeCode (code := rspFrameType b1) (by rwa [rspFrameType_toNat])
  have hunpack := rspUnpack_frameType q type (rspReserved b1) d
  rw [htype, packRspByte_fields] at hunpack
  exact ⟨type, htype, hunpack⟩

/-! ### The operations -/

section
variable {s : State} {x : Bytes}

theorem exec_rtPack_ok (hmax : s.WithinMax x) {ch : Nat} {rr : BitVec 1} {framed : Bytes}
    (h : rtPack s.params.protocolVersion x ch rr = .ok framed) :
    exec (.rtPack x ch rr) s = .next (s.emitting [.result .ok (.bytes framed)]) := by
  show execRtPack x ch rr s = _
  rw [execRtPack, withPayload_eq hmax, h]
  rfl

theorem exec_rtUnpack_ok (hmax : s.WithinMax x) {h : RtHeader} {p : Bytes}
    (hunpack : rtUnpack s.params.protocolVersion x = .ok (h, p)) :
    exec (.rtUnpack x) s = .next (s.emitting [.result .ok
      (.routing (h.version.setWidth 8) (h.channel.setWidth 8) h.requestResponse h.reserved p)]) := by
  show execRtUnpack x s = _
  rw [execRtUnpack, withPayload_eq hmax, hunpack]
  rfl

theorem exec_rtUnpack_error (hmax : s.WithinMax x) {e : Err} (h : rtUnpack s.params.protocolVersion x = .error e) :
    exec (.rtUnpack x) s = .next (s.emitting [.result (.error e) .none]) := by
  show execRtUnpack x s = _
  rw [execRtUnpack, withPayload_eq hmax, h]
  rfl

theorem exec_rspPack_ok (hmax : s.WithinMax x) {q : SeqNo} {ft : BitVec 8} {framed : Bytes}
    (h : rspPack q ft x = .ok framed) :
    exec (.rspPack q ft x) s = .next (s.emitting [.result .ok (.bytes framed)]) := by
  show execRspPack q ft x s = _
  rw [execRspPack, withPayload_eq hmax, h]
  rfl

theorem exec_rspPack_error (hmax : s.WithinMax x) {q : SeqNo} {ft : BitVec 8} {e : Err}
    (h : rspPack q ft x = .error e) :
    exec (.rspPack q ft x) s = .next (s.emitting [.result (.error e) .none]) := by
  show execRspPack q ft x s = _
  rw [execRspPack, withPayload_eq hmax, h]
  rfl

theorem exec_rspUnpack_ok (hmax : s.WithinMax x) {r : RspParts} (h : rspUnpack x = .ok r) :
    exec (.rspUnpack x) s = .next (s.emitting [.result .ok
      (.reliability r.sequence ((frameTypeCode r.frameType).setWidth 8) (r.reserved.setWidth 8) r.data)]) := by
  show execRspUnpack x s = _
  rw [execRspUnpack, withPayload_eq hmax, h]
  rfl

theorem exec_rspUnpack_error (hmax : s.WithinMax x) {e : Err} (h : rspUnpack x = .error e) :
    exec (.rspUnpack x) s = .next (s.emitting [.result (.error e) .none]) := by
  show execRspUnpack x s = _
  rw [execRspUnpack, withPayload_eq hmax, h]
  rfl

end

/-! ### The obligations -/

/-- Settles O23: the channel test of R137, and the byte of R141 behind it. -/
theorem rtPackOutcomes : Obligations.RtPackOutcomes := by
  intro p ch rr s hmax
  split
  next hch => rw [exec_rtPack_ok hmax (rtPack_legal hch _ p rr), packRtHeader_legal hch]
  next hch => exact exec_rtPack_channelRange hmax (Nat.lt_of_not_le hch) rr

/-- Settles O24: the length test, then the version test of `rtUnpack_packRtHeader` on the byte's own fields. -/
theorem rtUnpackOutcomes : Obligations.RtUnpackOutcomes := by
  refine ⟨fun x => rfl, fun s => exec_rtUnpack_error (fun _ _ => Nat.zero_le _) rfl, fun h p s hmax => ?_⟩
  have hunpack := rtUnpack_packRtHeader s.params.protocolVersion (unpackRtHeader h) p
  rw [packRtHeader_unpackRtHeader] at hunpack
  have hversion : (unpackRtHeader h).version = s.params.protocolVersion ↔
      h.toNat / 64 = s.params.protocolVersion.toNat := by
    rw [← BitVec.toNat_inj, unpackRtHeader_version_toNat]
  split
  next hsame =>
    rw [if_pos (hversion.2 hsame)] at hunpack
    rw [exec_rtUnpack_ok hmax hunpack, setWidth_eq_ofNat (unpackRtHeader_version_toNat h),
      setWidth_eq_ofNat (unpackRtHeader_channel_toNat h), unpackRtHeader_eq]
  next hother =>
    rw [if_neg (mt hversion.1 hother)] at hunpack
    rw [exec_rtUnpack_error hmax hunpack, unpackRtHeader_eq]

/-- Settles O25: the record carries both fields at their values, and R143 tests the frame type. -/
theorem rspPackOutcomes : Obligations.RspPackOutcomes := by
  refine ⟨fun q ft p => (exceptBind_of_ok (fieldOf_toNat q) _).trans (exceptBind_of_ok (fieldOf_toNat ft) _),
    fun q ft p s hmax => ?_⟩
  split
  next hft =>
    rw [exec_rspPack_ok hmax (rspPack_legal hft q p), packRspByte_eq, toNat_setWidth_frameType hft]
    rfl
  next hft => exact exec_rspPack_error hmax (rspPack_reserved (Nat.lt_of_not_le hft) q p)

/-- Settles O26: the length test, then the frame type test (R146). -/
theorem rspUnpackOutcomes : Obligations.RspUnpackOutcomes := by
  refine ⟨fun x => rfl, fun x s hshort hmax => exec_rspUnpack_error hmax (rspUnpack_short hshort),
    fun b0 b1 d s hmax => ?_⟩
  split
  next hft =>
    obtain ⟨type, htype, hunpack⟩ := rspUnpack_legal hft b0 d
    rw [exec_rspUnpack_ok hmax hunpack, htype, setWidth_eq_ofNat (rspFrameType_toNat b1),
      setWidth_eq_ofNat (rspReserved_toNat b1)]
  next hft => exact exec_rspUnpack_error hmax (rspUnpack_badFrameType (Nat.lt_of_not_le hft) b0 d)

/-- Settles O27: the unpacking of a header as it was packed, for each of the two headers (R140, R147). -/
theorem headerRoundTrips : Obligations.HeaderRoundTrips := by
  refine ⟨fun v p ch rr hch => ⟨_, rtPack_legal hch v p rr, ?_⟩, fun q ft p hft => ?_⟩
  · rw [rtUnpack_packRtHeader, if_pos rfl]
  · have hcode : (ft.setWidth 4).toNat = ft.toNat := toNat_setWidth_frameType hft
    obtain ⟨type, htype⟩ := exists_frameTypeCode (hcode.trans_le hft)
    refine ⟨_, type, rspPack_legal hft q p, ?_, ?_⟩
    · rw [htype, hcode]
    · rw [← htype, rspUnpack_frameType]

end Sys2Proof.Machine
end


-- ==== Proofs: the sequence tracker ====
section
/-! The sequence tracker run on its own: the number `SEQ.NEXT` hands out, and the one entry of `PEND` that its operations
and the two received responses write (R156 to R161, R182, R183). -/

namespace Sys2Proof.Machine

/-! ### The sequence number (R156) -/

/-- The next number, modulo 256 as a sum of 8-bit words already is. -/
theorem ofNat_seq_succ (q : SeqNo) : BitVec.ofNat 8 ((q.toNat + 1) % 256) = q + 1 := by
  apply BitVec.eq_of_toNat_eq
  rw [BitVec.toNat_ofNat, BitVec.toNat_add, Nat.mod_mod]
  rfl

/-- Settles O28: `seqNext` by its value and its state, the number written as R156 writes it. -/
theorem sequenceNumbersHandedOut : Obligations.SequenceNumbersHandedOut := by
  intro s
  rw [ofNat_seq_succ]
  exact ⟨rfl, rfl⟩

/-! ### One entry of `PEND` (R158 to R161) -/

/-- An operation that ends in `PendStore` writes its one entry, with data within `MAX_PAYLOAD`, and nothing else. -/
theorem storesEntry_of_pendStore {r : Result} {q : SeqNo} {ft : RespType} {d : Bytes} {s : State}
    (h : r = .next (pendStore q ft d s)) :
    ∃ (t : State) (stored : Bytes), r = .next t ∧ t = { s with pend := t.pend } ∧
      (s.WithinMax d → stored = d) ∧ s.WithinMax stored ∧
      ∀ x, pendGet t x = if x = q then some { frameType := ft, data := stored } else pendGet s x :=
  ⟨pendStore q ft d s, storedData s.params q d, h, rfl, fun hd => storedData_eq hd q, storedData_withinMax s q d,
    fun x => pendGet_pendStore q x ft d s⟩

/-- Settles O29: `storesEntry_of_pendStore`, and for the two others the entry emptied by `pendGet_pendSet`. -/
theorem pendingTableOperations : Obligations.PendingTableOperations :=
  ⟨fun _ _ _ _ => storesEntry_of_pendStore rfl,
   fun q s => ⟨(pendSet q none s).emitting [.returned (.entry (pendGet s q))], rfl, rfl,
     fun x => (pendGet_emitting _ _ x).trans (pendGet_pendSet s q x none)⟩,
   fun q s => ⟨pendSet q none s, rfl, rfl, fun x => pendGet_pendSet s q x none⟩⟩

/-- Settles O36: in its mode, with the link open, a received response is stored and does nothing else. -/
theorem responsesAreStored : Obligations.ResponsesAreStored := fun _ _ _ _ hopen hmode =>
  ⟨storesEntry_of_pendStore (whileReliable_started hopen hmode _),
   storesEntry_of_pendStore (whileReliable_started hopen hmode _)⟩

end Sys2Proof.Machine
end

-- ==== Proofs: ticks in a row ====
section
/-! What ticks in a row do to one slot of `WAIT`: nothing until the first tick that has an event for it (R175, R226), and
so when a stored response is delivered (R162, R277, R285). -/

namespace Sys2Proof.Machine

/-! ### A run and the `DONE` events of one number -/

/-- `n` steps lead from `s` to `t`; the `DONE` events of `q` they emit are `done`, in this order. -/
def RunsEmitting (n : Nat) (q : SeqNo) (done : List Output) (s t : State) : Prop :=
  ∃ l : List Output, Sys2Proof.core.run n s = .next t ∧ t.out = s.out ++ l ∧ l.filter (Output.isDone q) = done

section
variable {n : Nat} {q : SeqNo} {done : List Output} {s t u : State}

theorem runsEmitting_zero (q : SeqNo) (s : State) : RunsEmitting 0 q [] s s := ⟨[], rfl, by simp, rfl⟩

/-- A run of one more step is the run, then the step. -/
theorem run_succ_last (h : Sys2Proof.core.run n s = .next t) (hstep : step t = .next u) :
    Sys2Proof.core.run (n + 1) s = .next u := by
  induction n generalizing s with
  | zero => cases h; exact run_succ hstep 0
  | succ n ih =>
    cases hs : Sys2Proof.core.step s with
    | next v =>
      rw [run_succ hs] at h ⊢
      exact ih h
    | fault r => simp [Host.Core.run, hs] at h
    | refused r => simp [Host.Core.run, hs] at h

/-! ### One tick presented by the timer (R58, R226) -/

@[simp] theorem tickOnce_inbox (s : State) : (tickOnce s).inbox = s.inbox := by rw [tickOnce_frame]

theorem step_tickInput {rest : List Input} (h : s.inbox = tickInput :: rest) :
    step s = .next (tickOnce { s with inbox := rest }) :=
  (step_serve h).trans (serve_ok (i := .tick) rfl _)

/-- The `DONE` events of `q` that a tick emits: the event of its slot, if there is one. -/
theorem tickOnce_done (s : State) (q : SeqNo) : ∃ l : List Output, (tickOnce s).out = s.out ++ l ∧
    l.filter (Output.isDone q) = (tickEvent (s.now + 1) q (waitGet s q) (pendGet s q)).toList := by
  refine ⟨_, tickOnce_out s, ?_⟩
  rw [filter_isDone_filterMap (fun _ _ => tickEvent_isDone) q allSequences_nodup, if_pos (mem_allSequences q)]

/-- A run followed by one tick. -/
theorem RunsEmitting.tick (h : RunsEmitting n q done s t) {rest : List Input} (hin : t.inbox = tickInput :: rest) :
    RunsEmitting (n + 1) q (done ++ (tickEvent (t.now + 1) q (waitGet t q) (pendGet t q)).toList) s
      (tickOnce { t with inbox := rest }) := by
  obtain ⟨l, hrun, hout, hl⟩ := h
  obtain ⟨m, hout', hm⟩ := tickOnce_done { t with inbox := rest } q
  refine ⟨l ++ m, run_succ_last hrun (step_tickInput hin), ?_, ?_⟩
  · rw [hout', ← List.append_assoc]
    exact congrArg (· ++ m) hout
  · rw [List.filter_append, hl, hm]
    rfl

/-! ### Ticks in a row -/

/-- `n` ticks with no event for slot `q`: time moves on by `n`, the slot and its entry stay, no `DONE` event of `q`. -/
theorem run_ticks_of_noEvent {rest : List Input} (hin : s.inbox = List.replicate n tickInput ++ rest)
    (hev : ∀ k < n, tickEvent (s.now + BitVec.ofNat 32 k + 1) q (waitGet s q) (pendGet s q) = none) :
    ∃ t, RunsEmitting n q [] s t ∧ t.inbox = rest ∧ t.now = s.now + BitVec.ofNat 32 n ∧
      waitGet t q = waitGet s q ∧ pendGet t q = pendGet s q := by
  induction n generalizing rest with
  | zero => exact ⟨s, runsEmitting_zero q s, hin, by simp, rfl, rfl⟩
  | succ n ih =>
    rw [List.replicate_succ', List.append_assoc] at hin
    obtain ⟨t, hrun, hinbox, hnow, hwait, hpend⟩ := ih hin fun k hk => hev k (Nat.lt_succ_of_lt hk)
    have hnone : tickEvent (t.now + 1) q (waitGet t q) (pendGet t q) = none := by
      rw [hnow, hwait, hpend]
      exact hev n (Nat.lt_succ_self n)
    obtain ⟨hwait', hpend'⟩ := tickOnce_of_noEvent (s := { t with inbox := rest }) hnone
    have htick := hrun.tick hinbox
    rw [hnone] at htick
    refine ⟨_, htick, tickOnce_inbox _, ?_, hwait'.trans hwait, hpend'.trans hpend⟩
    rw [tickOnce_now, hnow, BitVec.ofNat_add, BitVec.add_assoc]
    rfl

/-- `n` ticks with no event for slot `q`, then one with an event: it alone is emitted, and the slot and its entry are
cleared. -/
theorem run_ticks_of_event {rest : List Input} {o : Output}
    (hin : s.inbox = List.replicate (n + 1) tickInput ++ rest)
    (hev : ∀ k < n, tickEvent (s.now + BitVec.ofNat 32 k + 1) q (waitGet s q) (pendGet s q) = none)
    (hlast : tickEvent (s.now + BitVec.ofNat 32 n + 1) q (waitGet s q) (pendGet s q) = some o) :
    ∃ t, RunsEmitting (n + 1) q [o] s t ∧ waitGet t q = .idle ∧ pendGet t q = none := by
  rw [List.replicate_succ', List.append_assoc] at hin
  obtain ⟨t, hrun, hinbox, hnow, hwait, hpend⟩ := run_ticks_of_noEvent hin hev
  have hsome : tickEvent (t.now + 1) q (waitGet t q) (pendGet t q) = some o := by rw [hnow, hwait, hpend, hlast]
  have htick := hrun.tick hinbox
  rw [hsome] at htick
  exact ⟨_, htick, tickOnce_of_event (s := { t with inbox := rest }) hsome⟩

end

/-! ### A stored response (R162, R175, R226, R285) -/

/-- The elapsed time after `k` ticks and one more, where it does not wrap (R33). -/
theorem elapsed_after {now t0 : Ticks} {k : Nat} (h : (now - t0).toNat + (k + 1) < 2 ^ 32) :
    (now + BitVec.ofNat 32 k + 1 - t0).toNat = (now - t0).toNat + (k + 1) := by
  bv_omega

theorem tickEvent_notDue {now t0 : Ticks} (h : (now - t0).toNat % 10 ≠ 0) (q : SeqNo) (timeout : Ticks)
    (e : Option PendEntry) : tickEvent now q (.busy t0 timeout) e = none :=
  if_pos h

theorem tickEvent_response {now t0 : Ticks} (h : (now - t0).toNat % 10 = 0) (q : SeqNo) (timeout : Ticks)
    (e : PendEntry) : tickEvent now q (.busy t0 timeout) (some e) = some (doneResponse q e) :=
  if_neg (not_not_intro h)

section
variable {s : State} {q : SeqNo} {t0 timeout : Ticks} {e : PendEntry} {n : Nat} {rest : List Input}

/-- A tick that leaves the elapsed time below the next multiple of `POLL` passes over the slot. -/
theorem tickEvent_beforeNextPoll (hbusy : waitGet s q = .busy t0 timeout) {k : Nat}
    (hwrap : (s.now - t0).toNat + (k + 1) < 2 ^ 32) (hk : k + 1 < 10 - (s.now - t0).toNat % 10) :
    tickEvent (s.now + BitVec.ofNat 32 k + 1) q (waitGet s q) (pendGet s q) = none := by
  have hnotDue : (s.now + BitVec.ofNat 32 k + 1 - t0).toNat % 10 ≠ 0 := by
    rw [elapsed_after hwrap]
    omega
  rw [hbusy]
  exact tickEvent_notDue hnotDue q timeout _

theorem response_waits (hbusy : waitGet s q = .busy t0 timeout) (hpend : pendGet s q = some e)
    (hwrap : (s.now - t0).toNat + n < 2 ^ 32) (hin : s.inbox = List.replicate n tickInput ++ rest)
    (hn : n < 10 - (s.now - t0).toNat % 10) :
    ∃ t, RunsEmitting n q [] s t ∧ waitGet t q = .busy t0 timeout ∧ pendGet t q = some e := by
  obtain ⟨t, hrun, -, -, hwait, hentry⟩ := run_ticks_of_noEvent hin fun k hk =>
    tickEvent_beforeNextPoll hbusy (by omega) (by omega)
  exact ⟨t, hrun, hwait.trans hbusy, hentry.trans hpend⟩

theorem response_delivered (hbusy : waitGet s q = .busy t0 timeout) (hpend : pendGet s q = some e)
    (hwrap : (s.now - t0).toNat + (n + 1) < 2 ^ 32) (hin : s.inbox = List.replicate (n + 1) tickInput ++ rest)
    (hn : n + 1 = 10 - (s.now - t0).toNat % 10) :
    ∃ t, RunsEmitting (n + 1) q [doneResponse q e] s t ∧ waitGet t q = .idle ∧ pendGet t q = none := by
  have hdue : (s.now + BitVec.ofNat 32 n + 1 - t0).toNat % 10 = 0 := by
    rw [elapsed_after hwrap]
    omega
  refine run_ticks_of_event hin (fun k hk => tickEvent_beforeNextPoll hbusy (by omega) (by omega)) ?_
  rw [hbusy, hpend]
  exact tickEvent_response hdue q timeout e

end

/-- Settles O59: `response_waits` before the next multiple of `POLL` and `response_delivered` at it; of ten ticks, the
first `9 - elapsed % 10` pass with the response waiting. -/
theorem responseDeliveredAtNextPoll : Obligations.ResponseDeliveredAtNextPoll := by
  refine ⟨fun s q t0 timeout e n rest hbusy hpend hwrap hin hn => ?_,
    fun s q t0 timeout e rest hbusy hpend hwrap hin => ?_⟩
  · rcases Nat.lt_or_eq_of_le hn with hlt | heq
    · obtain ⟨t, ⟨l, hrun, hout, hdone⟩, hwait, hentry⟩ := response_waits hbusy hpend hwrap hin hlt
      exact ⟨t, l, hrun, hout, fun _ => ⟨hwait, hentry, hdone⟩, fun h => absurd h hlt.ne⟩
    · obtain ⟨m, rfl⟩ : ∃ m, n = m + 1 := ⟨n - 1, by omega⟩
      obtain ⟨t, ⟨l, hrun, hout, hdone⟩, hwait, hentry⟩ := response_delivered hbusy hpend hwrap hin heq
      exact ⟨t, l, hrun, hout, fun h => absurd heq h.ne, fun _ => ⟨hwait, hentry, hdone⟩⟩
  · have hsplit : ∀ j ≤ 10, s.inbox = List.replicate j tickInput ++ (List.replicate (10 - j) tickInput ++ rest) := by
      intro j hj
      rw [hin, ← List.append_assoc, List.replicate_append_replicate, Nat.add_sub_cancel' hj]
    refine ⟨9 - (s.now - t0).toNat % 10, by omega, by omega, fun j hj => ?_, ?_⟩
    · obtain ⟨t, ⟨l, hrun, hout, hdone⟩, -, hentry⟩ :=
        response_waits hbusy hpend (by omega) (hsplit j (by omega)) (by omega)
      exact ⟨t, l, hrun, hout, hentry, hdone⟩
    · obtain ⟨t, ⟨l, hrun, hout, hdone⟩, -, hentry⟩ :=
        response_delivered (n := 9 - (s.now - t0).toNat % 10) hbusy hpend (by omega) (hsplit _ (by omega)) (by omega)
      exact ⟨t, l, hrun, hout, hentry, hdone⟩

end Sys2Proof.Machine
end

-- ==== Proofs: one poll of a busy slot ====
section
/-! `WAIT.POLL` run on its own is the poll of its slot (R175). -/

namespace Sys2Proof.Machine

theorem exec_waitPoll_busy {q : SeqNo} {t0 timeout : Ticks} {s : State} (h : waitGet s q = .busy t0 timeout) :
    exec (.waitPoll q) s = .next (waitPoll q t0 timeout s) := by
  show execWaitPoll q s = _
  rw [execWaitPoll, h]

/-- Settles O33: the three outcomes of `waitPoll`. -/
theorem waitPollOutcomes : Obligations.WaitPollOutcomes := by
  intro q t0 timeout s hbusy
  rw [exec_waitPoll_busy hbusy]
  exact ⟨fun _ hresponse => congrArg _ (waitPoll_response hresponse t0 timeout),
    fun hempty hdue => congrArg _ (waitPoll_timeout hempty hdue),
    fun hempty hearly => congrArg _ (waitPoll_waiting hempty hearly)⟩

end Sys2Proof.Machine
end

-- ==== Proofs: the two sends ====
section
/-! `SEND.NOACK` and `SEND.ACK`: the checks in their order, the frame, and what an accepted request leaves behind (R171 to
R174, R202 to R206). -/

namespace Sys2Proof.Machine

/-! ### The mode and channel tests (R171, R172) -/

/-- The channel is one the mode takes: 4 bits in `ABOVE` mode, a `u8` in `BELOW` (R171, R172; log 7). -/
def ChannelLegal (mode : RelMode) (ch : Nat) : Prop := if mode = .above then ch ≤ 15 else ch ≤ 255

/-- The placement an accepted send uses: a routing header with the command's channel and flag in `ABOVE` mode, none in
`BELOW` (R202, R203). -/
def sendPlacement (mode : RelMode) (ch : Nat) (rr : BitVec 1) : Route :=
  if mode = .above then .above (BitVec.ofNat 4 ch) rr else .below

section
variable {mode : RelMode} {ch : Nat}

theorem channelLegal_of_not_out (h : ¬ if mode = .above then 15 < ch else 255 < ch) : ChannelLegal mode ch := by
  unfold ChannelLegal
  split at h
  · rw [if_pos ‹_›]
    exact Nat.le_of_not_lt h
  · rw [if_neg ‹_›]
    exact Nat.le_of_not_lt h

theorem sendRoute_off (ch : Nat) (rr : BitVec 1) : sendRoute .off ch rr = .error (.contract .mode) := rfl

theorem sendRoute_out (hmode : mode ≠ .off) (h : if mode = .above then 15 < ch else 255 < ch) (rr : BitVec 1) :
    sendRoute mode ch rr = .error (.contract .channelRange) := by
  cases mode with
  | off => exact absurd rfl hmode
  | below => exact sendRoute_channelRange (.inr ⟨rfl, h⟩) rr
  | above => exact sendRoute_channelRange (.inl ⟨rfl, h⟩) rr

theorem sendRoute_placement (hmode : mode ≠ .off) (h : ChannelLegal mode ch) (rr : BitVec 1) :
    sendRoute mode ch rr = .ok (sendPlacement mode ch rr) := by
  cases mode with
  | off => exact absurd rfl hmode
  | below => exact if_neg (Nat.not_le_of_lt (Nat.lt_succ_of_le h))
  | above =>
    rw [sendRoute, channelOf, if_neg (Nat.not_lt_of_le h)]
    rfl

end

theorem lane_sendPlacement (s : State) (ch : Nat) (rr : BitVec 1) :
    (sendPlacement s.cfg.relMode ch rr).lane = laneOf s ch rr := by
  unfold sendPlacement laneOf
  split <;> rfl

/-! ### The frame (R202 to R206) -/

/-- `RelSend` writes one frame in the layout of `relFrame`. -/
theorem relSend_emitting {s : State} (h : s.cfg.relMode ≠ .off) (route : Route) (q : SeqNo) (ft : FrameType)
    (d : Bytes) :
    relSend route q ft d s = s.emitting [.link (relFrame s route.lane q (packRspByte (frameTypeCode ft) 0) d)] := by
  rw [relSend, txUnit, linkWrite, wireOf_relBody h]
  rfl

/-! ### `SEND.NOACK` -/

theorem exec_sendNoack_accepted {s : State} {d : Bytes} {ch : Nat} {rr : BitVec 1} {route : Route}
    (hmax : s.WithinMax d) (hmode : s.cfg.relMode ≠ .off) (h : sendRoute s.cfg.relMode ch rr = .ok route) :
    exec (.sendNoack d ch rr) s =
      .next (s.emitting [.link (relFrame s route.lane 0 0x10 d), .result .ok (.sent 1 [])]) := by
  show execSendNoack d ch rr s = _
  rw [execSendNoack, withPayload_eq hmax, h]
  dsimp only
  rw [relSend_emitting hmode, reply, emit_eq, emitting_emitting]
  rfl

/-- Settles O30: the mode test, the channel test, then the one frame. -/
theorem sendNoackOutcomes : Obligations.SendNoackOutcomes := by
  intro d ch rr s hmax
  by_cases hoff : s.cfg.relMode = .off
  · rw [if_pos hoff]
    exact exec_sendNoack_refused hmax (hoff ▸ sendRoute_off ch rr)
  rw [if_neg hoff]
  by_cases hout : if s.cfg.relMode = .above then 15 < ch else 255 < ch
  · rw [if_pos hout]
    exact exec_sendNoack_refused hmax (sendRoute_out hoff hout rr)
  · rw [if_neg hout, ← lane_sendPlacement]
    exact exec_sendNoack_accepted hmax hoff (sendRoute_placement hoff (channelLegal_of_not_out hout) rr)

/-! ### `SEND.ACK` refused -/

theorem timeoutOf_eq (timeout : Option Nat) (dflt : Ticks) : timeoutOf timeout dflt = timeout.getD dflt.toNat := by
  cases timeout <;> rfl

/-- `SEND.ACK` behind the mode and channel tests: the timeout's range, then the slot, then the request (R172). -/
theorem exec_sendAck_routed {s : State} {d : Bytes} {ch : Nat} {rr : BitVec 1} {route : Route} {timeout : Option Nat}
    (hmax : s.WithinMax d) (h : sendRoute s.cfg.relMode ch rr = .ok route) :
    exec (.sendAck d timeout ch rr) s = .next
      (if 2 ^ 31 - 1 < timeout.getD s.timeoutDefault.toNat then fail (.contract .timeoutRange) s
       else if waitGet s (s.seq + 1) = .idle then
         issueRequest route d (BitVec.ofNat 32 (timeout.getD s.timeoutDefault.toNat)) s
       else fail (.busy (s.seq + 1)) s) := by
  show execSendAck d timeout ch rr s = _
  rw [execSendAck, withPayload_eq hmax, h]
  simp only [timeoutOf_eq, timeoutMax]
  cases waitGet s (s.seq + 1) <;> simp

/-- Settles O32: `exec_sendAck_refused` for the mode and the channel, `exec_sendAck_routed` for the timeout and the
slot. -/
theorem sendAckRefused : Obligations.SendAckRefused := by
  intro d timeout ch rr s hmax
  dsimp only
  by_cases hoff : s.cfg.relMode = .off
  · rw [if_pos hoff]
    exact exec_sendAck_refused hmax (hoff ▸ sendRoute_off ch rr) timeout
  rw [if_neg hoff]
  by_cases hout : if s.cfg.relMode = .above then 15 < ch else 255 < ch
  · rw [if_pos hout]
    exact exec_sendAck_refused hmax (sendRoute_out hoff hout rr) timeout
  rw [if_neg hout, exec_sendAck_routed hmax (sendRoute_placement hoff (channelLegal_of_not_out hout) rr)]
  by_cases hlate : 2 ^ 31 - 1 < timeout.getD s.timeoutDefault.toNat
  · rw [if_pos hlate, if_pos hlate]
    rfl
  · rw [if_neg hlate, if_neg hlate]
    intro hbusy
    rw [if_neg hbusy]
    rfl

/-! ### `SEND.ACK` accepted -/

theorem waitSet_waitSet (q : SeqNo) (w w' : Waiter) (s : State) : waitSet q w (waitSet q w' s) = waitSet q w s := by
  simp [waitSet]

/-- The state in which the frame is written: the new number, its entry purged, its slot busy from now on (R172). -/
def requestState (timeout : Ticks) (s : State) : State :=
  waitSet (s.seq + 1) (.busy s.now timeout) (pendSet (s.seq + 1) none { s with seq := s.seq + 1 })

theorem issueRequest_eq {s : State} (hmode : s.cfg.relMode ≠ .off) (route : Route) (d : Bytes) (timeout : Ticks) :
    issueRequest route d timeout s =
      (waitPoll (s.seq + 1) s.now timeout
        ((requestState timeout s).emitting [.link (relFrame s route.lane (s.seq + 1) 0x00 d)])).emitting
        [.result .ok (.sequence (s.seq + 1))] := by
  show (waitPoll (s.seq + 1) s.now timeout
      (relSend route (s.seq + 1) .dataAck d (requestState timeout s))).emitting _ = _
  rw [relSend_emitting (s := requestState timeout s) hmode]
  rfl

theorem pendGet_requestState (timeout : Ticks) (s : State) (l : List Output) :
    pendGet ((requestState timeout s).emitting l) (s.seq + 1) = none := by
  rw [pendGet_emitting, requestState, pendGet_waitSet, pendGet_pendSet_same]

/-- The poll at elapsed time 0 ends a request with timeout 0 at once (R172, R175). -/
theorem issueRequest_zero {s : State} (hmode : s.cfg.relMode ≠ .off) (hidle : waitGet s (s.seq + 1) = .idle)
    (route : Route) (d : Bytes) :
    issueRequest route d 0 s = (pendSet (s.seq + 1) none { s with seq := s.seq + 1 }).emitting
      [.link (relFrame s route.lane (s.seq + 1) 0x00 d), doneTimeout (s.seq + 1),
       .result .ok (.sequence (s.seq + 1))] := by
  have hfree : waitSet (s.seq + 1) .idle (requestState 0 s) =
      pendSet (s.seq + 1) none { s with seq := s.seq + 1 } :=
    (waitSet_waitSet _ _ _ _).trans (waitSet_self hidle)
  rw [issueRequest_eq hmode, waitPoll_timeout (pendGet_requestState 0 s _) (Nat.zero_le _), ← hfree]
  simp [State.emitting, waitSet]

/-- A request that waits: its frame is written and its number returned (R172). -/
def requestSent (route : Route) (d : Bytes) (timeout : Ticks) (s : State) : State :=
  (requestState timeout s).emitting
    [.link (relFrame s route.lane (s.seq + 1) 0x00 d), .result .ok (.sequence (s.seq + 1))]

/-- With a timeout above 0 the poll at elapsed time 0 finds nothing to do. -/
theorem issueRequest_waiting {s : State} (hmode : s.cfg.relMode ≠ .off) {timeout : Ticks} (h : 0 < timeout.toNat)
    (route : Route) (d : Bytes) : issueRequest route d timeout s = requestSent route d timeout s := by
  have hearly : (s.now - s.now).toNat < timeout.toNat := by
    rw [BitVec.sub_self]
    exact h
  rw [issueRequest_eq hmode, waitPoll_waiting (pendGet_requestState timeout s _) hearly, emitting_emitting]
  rfl

theorem ofNat_timeout_pos {T : Nat} (hpos : 0 < T) (hlegal : T ≤ 2 ^ 31 - 1) : 0 < (BitVec.ofNat 32 T).toNat := by
  rw [BitVec.toNat_ofNat, Nat.mod_eq_of_lt (by omega)]
  exact hpos

theorem exec_sendAck_accepted {s : State} {d : Bytes} {ch : Nat} {timeout : Option Nat} (hmax : s.WithinMax d)
    (hmode : s.cfg.relMode ≠ .off) (hch : ChannelLegal s.cfg.relMode ch)
    (hlegal : timeout.getD s.timeoutDefault.toNat ≤ 2 ^ 31 - 1) (hidle : waitGet s (s.seq + 1) = .idle) (rr : BitVec 1) :
    exec (.sendAck d timeout ch rr) s = .next (issueRequest (sendPlacement s.cfg.relMode ch rr) d
      (BitVec.ofNat 32 (timeout.getD s.timeoutDefault.toNat)) s) := by
  rw [exec_sendAck_routed hmax (sendRoute_placement hmode hch rr), if_neg (Nat.not_lt_of_le hlegal), if_pos hidle]

/-- Settles O31: the checks are met, and the first poll ends the request exactly if its timeout is 0. -/
theorem sendAckAccepted : Obligations.SendAckAccepted := by
  intro d timeout ch rr s hmax hmode hch hlegal hidle
  dsimp only
  rw [exec_sendAck_accepted hmax hmode hch hlegal hidle, ← lane_sendPlacement]
  by_cases hzero : timeout.getD s.timeoutDefault.toNat = 0
  · rw [if_pos hzero, hzero]
    exact congrArg _ (issueRequest_zero hmode hidle _ d)
  · rw [if_neg hzero]
    exact congrArg _ (issueRequest_waiting hmode (ofNat_timeout_pos (Nat.pos_of_ne_zero hzero) hlegal) _ d)

end Sys2Proof.Machine
end

-- ==== Proofs: the end of a waiter without a response ====
section
/-! With no response, ticks pass over a slot until the poll at `POLL * ceil(T / POLL)`, which ends it (R175, R176, R226). -/

namespace Sys2Proof.Machine

theorem tickEvent_timeout {now t0 timeout : Ticks} (hdue : (now - t0).toNat % 10 = 0)
    (h : timeout.toNat ≤ (now - t0).toNat) (q : SeqNo) :
    tickEvent now q (.busy t0 timeout) none = some (doneTimeout q) :=
  (if_neg (not_not_intro hdue)).trans (if_pos h)

theorem tickEvent_early {now t0 timeout : Ticks} (hdue : (now - t0).toNat % 10 = 0)
    (h : (now - t0).toNat < timeout.toNat) (q : SeqNo) : tickEvent now q (.busy t0 timeout) none = none :=
  (if_neg (not_not_intro hdue)).trans (if_neg (Nat.not_le_of_lt h))

/-- Before the last poll a slot with no response has no event: a multiple of `POLL` below it is below the timeout. -/
theorem tickEvent_beforeLastPoll {now t0 timeout : Ticks} (h : (now - t0).toNat < lastPoll timeout) (q : SeqNo) :
    tickEvent now q (.busy t0 timeout) none = none := by
  by_cases hdue : (now - t0).toNat % 10 = 0
  · obtain ⟨hmul, -, hge⟩ := lastPoll_bounds timeout
    exact tickEvent_early hdue (by omega) q
  · exact tickEvent_notDue hdue q timeout none

theorem tickEvent_lastPoll {now t0 timeout : Ticks} (h : (now - t0).toNat = lastPoll timeout) (q : SeqNo) :
    tickEvent now q (.busy t0 timeout) none = some (doneTimeout q) := by
  obtain ⟨hmul, hle, -⟩ := lastPoll_bounds timeout
  exact tickEvent_timeout (h ▸ hmul) (h ▸ hle) q

section
variable {s : State} {q : SeqNo} {t0 timeout : Ticks} {n : Nat} {rest : List Input}

/-- A tick that leaves the elapsed time below the last poll passes over a slot with no response. -/
theorem tickEvent_whileWaiting (hbusy : waitGet s q = .busy t0 timeout) (hempty : pendGet s q = none)
    (hlegal : timeout.toNat ≤ 2 ^ 31 - 1) {k : Nat} (hk : k + 1 + (s.now - t0).toNat < lastPoll timeout) :
    tickEvent (s.now + BitVec.ofNat 32 k + 1) q (waitGet s q) (pendGet s q) = none := by
  obtain ⟨-, -, hge⟩ := lastPoll_bounds timeout
  rw [hbusy, hempty]
  refine tickEvent_beforeLastPoll ?_ q
  rw [elapsed_after (by omega)]
  omega

theorem waiter_waits (hbusy : waitGet s q = .busy t0 timeout) (hempty : pendGet s q = none)
    (hlegal : timeout.toNat ≤ 2 ^ 31 - 1) (hin : s.inbox = List.replicate n tickInput ++ rest)
    (hn : n + (s.now - t0).toNat < lastPoll timeout) :
    ∃ t, RunsEmitting n q [] s t ∧ waitGet t q = .busy t0 timeout := by
  obtain ⟨t, hrun, -, -, hwait, -⟩ := run_ticks_of_noEvent hin fun k hk =>
    tickEvent_whileWaiting hbusy hempty hlegal (by omega)
  exact ⟨t, hrun, hwait.trans hbusy⟩

theorem waiter_timesOut (hbusy : waitGet s q = .busy t0 timeout) (hempty : pendGet s q = none)
    (hlegal : timeout.toNat ≤ 2 ^ 31 - 1) (hin : s.inbox = List.replicate (n + 1) tickInput ++ rest)
    (hn : n + 1 + (s.now - t0).toNat = lastPoll timeout) :
    ∃ t, RunsEmitting (n + 1) q [doneTimeout q] s t ∧ waitGet t q = .idle := by
  obtain ⟨-, -, hge⟩ := lastPoll_bounds timeout
  have hlast : tickEvent (s.now + BitVec.ofNat 32 n + 1) q (waitGet s q) (pendGet s q) = some (doneTimeout q) := by
    rw [hbusy, hempty]
    refine tickEvent_lastPoll ?_ q
    rw [elapsed_after (by omega)]
    omega
  obtain ⟨t, hrun, hidle, -⟩ := run_ticks_of_event hin
    (fun k hk => tickEvent_whileWaiting hbusy hempty hlegal (by omega)) hlast
  exact ⟨t, hrun, hidle⟩

end

/-- Settles O58: `waiter_waits` before the last poll, `waiter_timesOut` at it. -/
theorem waiterTimesOutOnSchedule : Obligations.WaiterTimesOutOnSchedule := by
  intro s q t0 timeout n rest hbusy hempty hlegal hin hbefore hn
  rcases Nat.lt_or_eq_of_le hn with hlt | heq
  · obtain ⟨t, ⟨l, hrun, hout, hdone⟩, hwait⟩ := waiter_waits hbusy hempty hlegal hin hlt
    exact ⟨t, l, hrun, hout, fun _ => ⟨hwait, hdone⟩, fun h => absurd h hlt.ne⟩
  · obtain ⟨m, rfl⟩ : ∃ m, n = m + 1 := ⟨n - 1, by omega⟩
    obtain ⟨t, ⟨l, hrun, hout, hdone⟩, hidle⟩ := waiter_timesOut hbusy hempty hlegal hin heq
    exact ⟨t, l, hrun, hout, fun h => absurd heq h.ne, fun _ => ⟨hidle, hdone⟩⟩

end Sys2Proof.Machine
end

-- ==== Proofs: a request and its answer ====
section
/-! A request over a link that delivers every frame (R185): each of the two frames is received as the operation of its
frame type, and the stored response is collected by the poll at elapsed time 10. -/

namespace Sys2Proof.Machine

/-! ### A reliability frame received (R72, R202, R203, R209) -/

/-- The routing header a placement puts in front of the reliability header. -/
def Route.header (version : BitVec 2) : Route → Option RtHeader
  | .below => none
  | .above ch rr => some (ownRtHeader version ch rr)

theorem relBody_eq_rspBody (version : BitVec 2) (route : Route) (q : SeqNo) (ft : FrameType) (d : Bytes) :
    relBody version route q ft d = rspBody (route.header version) q (frameTypeCode ft) 0 d := by
  cases route <;> rfl

/-- A response goes back the way its request came (R180). -/
theorem replyRoute_header (version : BitVec 2) (route : Route) : replyRoute (route.header version) = route := by
  cases route <;> rfl

theorem routeOfMode_sendPlacement {s : State} (hmode : s.cfg.relMode ≠ .off) (ch : Nat) (rr : BitVec 1) :
    RouteOfMode s ((sendPlacement s.cfg.relMode ch rr).header s.params.protocolVersion) := by
  cases h : s.cfg.relMode with
  | off => exact absurd h hmode
  | below => exact .inl ⟨h, rfl⟩
  | above => exact .inr ⟨h, _, rfl, rfl⟩

/-- The layout of a frame depends on `CFG` and the version alone. -/
theorem relFrame_congr {s t : State} (hcfg : s.cfg = t.cfg)
    (hversion : s.params.protocolVersion = t.params.protocolVersion) : relFrame s = relFrame t := by
  funext lane q byte1 d
  simp only [relFrame, checkedFrame, routingByte, hcfg, hversion]

/-- A reliability frame, received whole, starts the operation of its frame type. -/
theorem exec_rxChunk_relFrame {s : State} {route : Route} (hopen : s.rxClosed = false) (hcarry : s.carry = [])
    (hroute : RouteOfMode s (route.header s.params.protocolVersion)) (q : SeqNo) (ft : FrameType) (d : Bytes) :
    exec (.rxChunk (relFrame s route.lane q (packRspByte (frameTypeCode ft) 0) d)) s =
      .next (dispatch ft q (route.header s.params.protocolVersion) d s) := by
  rw [← wireOf_relBody hroute.reliable, relBody_eq_rspBody]
  refine (exec_rxChunk_candidate hopen (fun _ => hcarry) (unitOf s.cfg _)).trans ?_
  rw [processCandidate_unitOf, hroute.receiveBody, receiveReliability_dispatch (rspUnpack_frameType q ft 0 d)]

/-! ### The peer's answer (R180) -/

/-- The frame type of an answer (R180). -/
def answerFrameType (ok : Bool) : FrameType := if ok then .respAck else .respNack

/-- The type under which an answer is stored (R182, R183). -/
def answerRespType (ok : Bool) : RespType := if ok then .ack else .nack

theorem dispatch_answer (ok : Bool) (q : SeqNo) (header : Option RtHeader) (d : Bytes) (s : State) :
    dispatch (answerFrameType ok) q header d s = pendStore q (answerRespType ok) d s := by
  cases ok <;> rfl

/-- The frame of an answer, received whole, is stored in the entry of its number (R182, R183). -/
theorem exec_rxChunk_answer {s : State} {route : Route} (hopen : s.rxClosed = false) (hcarry : s.carry = [])
    (hroute : RouteOfMode s (route.header s.params.protocolVersion)) (q : SeqNo) (ok : Bool) (d : Bytes) :
    exec (.rxChunk (relFrame s route.lane q (packRspByte (frameTypeCode (answerFrameType ok)) 0) d)) s =
      .next (pendStore q (answerRespType ok) d s) :=
  (exec_rxChunk_relFrame hopen hcarry hroute q (answerFrameType ok) d).trans (congrArg _ (dispatch_answer ok q _ d s))

theorem doneResponse_answer (q : SeqNo) (ok : Bool) (d : Bytes) :
    doneResponse q ⟨answerRespType ok, d⟩ = .event (.done q .ok ok d) := by
  cases ok <;> rfl

/-- What a request makes the peer output: the handler transaction with the waiting answer, and the response on the same
route. -/
theorem onDataAck_out {s : State} {ans : Answer} {more : List Answer} (hmode : s.cfg.relMode ≠ .off)
    (hans : s.answers = ans :: more) (route : Route) (q : SeqNo) (d : Bytes) :
    (onDataAck q (route.header s.params.protocolVersion) d s).out = s.out ++
      [.handler ⟨q, .dataAck, route.header s.params.protocolVersion, d⟩ ans,
       .link (relFrame s route.lane q (packRspByte (frameTypeCode (answerFrameType ans.ok)) 0) ans.data)] := by
  rw [onDataAck_eq, responseBody, replyRoute_header, takeAnswer_waiting hans, wireOf_relBody hmode]
  rfl

/-! ### The poll that collects it (R175, R226) -/

/-- A response that waits at elapsed time 0 is delivered by the tenth tick. -/
theorem response_deliveredByTenthTick {s : State} {q : SeqNo} {timeout : Ticks} {e : PendEntry} {rest : List Input}
    (hbusy : waitGet s q = .busy s.now timeout) (hpend : pendGet s q = some e)
    (hin : s.inbox = List.replicate 10 tickInput ++ rest) :
    ∃ t, RunsEmitting 10 q [doneResponse q e] s t ∧ waitGet t q = .idle := by
  have hnow : (s.now - s.now).toNat = 0 := by
    rw [BitVec.sub_self]
    rfl
  obtain ⟨t, hrun, hidle, -⟩ := response_delivered (n := 9) hbusy hpend (by omega) hin (by omega)
  exact ⟨t, hrun, hidle⟩

/-! ### The obligation -/

/-- Settles O60: the request is sent, received as `RX.DATA_ACK` and answered (`onDataAck_out`), its response stored at
elapsed time 0 (`exec_rxChunk_answer`) and collected by the tenth tick. -/
theorem requestIsAnswered : Obligations.RequestIsAnswered := by
  intro a b d timeout ch rr ans more hmax hmode hcfg hversion hch hpos hlegal hidle hopenA hopenB hcarryA hcarryB hans
  have hsend := (exec_sendAck_accepted hmax hmode hch hlegal hidle rr).trans
    (congrArg _ (issueRequest_waiting hmode (ofNat_timeout_pos hpos hlegal) _ d))
  have hrouteA := routeOfMode_sendPlacement hmode ch rr
  generalize sendPlacement a.cfg.relMode ch rr = route at hsend hrouteA
  generalize BitVec.ofNat 32 (timeout.getD a.timeoutDefault.toNat) = T at hsend
  have hrouteB : RouteOfMode b (route.header b.params.protocolVersion) := by
    rw [← hversion, RouteOfMode, ← hcfg, ← hversion]
    exact hrouteA
  have hframe : relFrame a = relFrame b := relFrame_congr hcfg hversion
  have hrequest : exec (.rxChunk (relFrame a route.lane (a.seq + 1) 0x00 d)) b =
      .next (onDataAck (a.seq + 1) (route.header b.params.protocolVersion) d b) :=
    hframe ▸ exec_rxChunk_relFrame hopenB hcarryB hrouteB (a.seq + 1) .dataAck d
  have hresponse : exec (.rxChunk (relFrame b route.lane (a.seq + 1)
        (packRspByte (frameTypeCode (answerFrameType ans.ok)) 0) ans.data)) (requestSent route d T a) =
      .next (pendStore (a.seq + 1) (answerRespType ans.ok) ans.data (requestSent route d T a)) :=
    hframe ▸ exec_rxChunk_answer (s := requestSent route d T a) hopenA hcarryA hrouteA (a.seq + 1) ans.ok ans.data
  refine ⟨_, _, _, _, _, _, hsend, rfl, hrequest, onDataAck_out hrouteB.reliable hans route _ d, rfl, rfl, rfl,
    hresponse, rfl, fun rest => ?_⟩
  have hbusy : waitGet (requestSent route d T a) (a.seq + 1) = .busy a.now T := waitGet_waitSet_same _ _ _
  have hstored := (pendGet_pendStore (a.seq + 1) (a.seq + 1) (answerRespType ans.ok) ans.data
    (requestSent route d T a)).trans (if_pos rfl)
  obtain ⟨a3, ⟨l, hrun, hout, hdone⟩, hended⟩ := response_deliveredByTenthTick
    (s := { pendStore (a.seq + 1) (answerRespType ans.ok) ans.data (requestSent route d T a) with
      inbox := List.replicate 10 tickInput ++ rest }) hbusy hstored rfl
  rw [doneResponse_answer] at hdone
  exact ⟨a3, l, hrun, hout, hended, _, fun hfits => storedData_eq hfits _, storedData_withinMax a _ _, hdone⟩

end Sys2Proof.Machine
end

-- ==== Proofs: a plain packet sent ====
section
/-! `TX.PLAIN`: the mode test, the channel test, then one frame (R27, R200, R204, R205). -/

namespace Sys2Proof.Machine

section
variable {s : State} {ch : Nat} {p : Bytes}

/-! ### The frame -/

/-- In `OFF` mode a unit has its checksum exactly when `VERIFY_EN = 1` (R27). -/
theorem verifyEff_off {c : Cfg} (h : c.relMode = .off) : verifyEff c = c.verifyEn := by
  simp [verifyEff, h]

theorem wireOf_off (hmode : s.cfg.relMode = .off) (body : Bytes) :
    wireOf s.cfg body = if s.cfg.verifyEn then checkedFrame s body else uncheckedFrame s body := by
  rw [wireOf, unitOf, verifyEff_off hmode]
  cases s.cfg.verifyEn <;> rfl

theorem length32_toNat {n : Nat} (h : n < 2 ^ 32) : (length32 n).toNat = n := by
  rw [length32_of_lt h, BitVec.toNat_ofNat, Nat.mod_eq_of_lt h]

/-! ### The operation by its outcomes -/

theorem exec_txPlain_mode (hmax : s.WithinMax p) (hmode : s.cfg.relMode ≠ .off) (ch : Nat) (rr : BitVec 1) :
    exec (.txPlain ch rr p) s = .next (s.emitting [.result (.error (.contract .mode)) .none]) := by
  show execTxPlain ch rr p s = _
  rw [execTxPlain, withPayload_eq hmax, if_pos (by simpa using hmode)]
  rfl

/-- A legal packet is one link write of its body, then the size of what was written. -/
theorem exec_txPlain_sent (hmax : s.WithinMax p) (hmode : s.cfg.relMode = .off) (hch : ch ≤ 15) (rr : BitVec 1) :
    exec (.txPlain ch rr p) s =
      let w := wireOf s.cfg (packRtHeader ⟨s.params.protocolVersion, BitVec.ofNat 4 ch, rr, 0⟩ :: p)
      .next (s.emitting [.link w, .result .ok (.size (length32 w.length))]) := by
  show execTxPlain ch rr p s = _
  rw [execTxPlain, withPayload_eq hmax, if_neg (by simp [hmode]), rtPack_legal hch]
  dsimp only
  rw [txUnit, linkWrite, reply, emit_eq, emit_eq, emitting_emitting]
  rfl

end

/-- Settles O37: the two tests in their order, then the frame in the layout of `routingByte`. -/
theorem txPlainOutcomes : Obligations.TxPlainOutcomes := by
  intro ch rr p s hmax
  split
  next hmode => exact exec_txPlain_mode hmax hmode ch rr
  next hmode =>
    have hoff : s.cfg.relMode = .off := not_not.1 hmode
    split
    next hch => exact exec_txPlain_channelRange hmax hoff hch rr
    next hch =>
      have hsent := exec_txPlain_sent hmax hoff (Nat.le_of_not_lt hch) rr
      have hheader : packRtHeader ⟨s.params.protocolVersion, BitVec.ofNat 4 ch, rr, 0⟩ =
          routingByte s (BitVec.ofNat 4 ch) rr := packRtHeader_own s _ rr
      rw [hheader, wireOf_off hoff] at hsent
      exact ⟨_, length32_toNat, hsent⟩

end Sys2Proof.Machine
end

-- ==== Proofs: the first check that fails ====
section
/-! A candidate received alone: the checksum, the routing header and the reliability header are tested in this order,
and the first test that fails is the cause of the one discard (R209, R241, R243, R245). -/

namespace Sys2Proof.Machine

/-! ### The version test on a header byte (R139) -/

section
variable {v : BitVec 2} {h : Byte}

theorem rtUnpack_version (h : Byte) (p : Bytes) : rtUnpack v (h :: p) =
    if (unpackRtHeader h).version = v then .ok (unpackRtHeader h, p)
    else .error (.protocolVersion (unpackRtHeader h).version) := by
  have hunpack := rtUnpack_packRtHeader v (unpackRtHeader h) p
  rwa [packRtHeader_unpackRtHeader] at hunpack

theorem unpackRtHeader_version_iff : (unpackRtHeader h).version = v ↔ h.toNat / 64 = v.toNat := by
  rw [← BitVec.toNat_inj, unpackRtHeader_version_toNat]

theorem rtUnpack_ownVersion (hversion : h.toNat / 64 = v.toNat) (p : Bytes) :
    rtUnpack v (h :: p) = .ok (unpackRtHeader h, p) := by
  rw [rtUnpack_version, if_pos (unpackRtHeader_version_iff.2 hversion)]

theorem rtUnpack_otherVersion (hversion : h.toNat / 64 ≠ v.toNat) (p : Bytes) :
    rtUnpack v (h :: p) = .error (.protocolVersion (BitVec.ofNat 2 (h.toNat / 64))) := by
  rw [rtUnpack_version, if_neg (mt unpackRtHeader_version_iff.1 hversion), unpackRtHeader_eq]

end

/-! ### The reliability header, by mode (R209) -/

section
variable {s : State} {raw : Bytes} {e : Err}

theorem receiveBody_below_bad (hmode : s.cfg.relMode = .below) {body : Bytes} (h : rspUnpack body = .error e) :
    receiveBody raw body s = discard e raw s :=
  (receiveBody_below hmode).trans (receiveReliability_bad h)

/-- In `ABOVE` mode the reliability header stands behind a routing header of the block's version. -/
theorem receiveBody_above_bad (hmode : s.cfg.relMode = .above) {h : Byte}
    (hversion : h.toNat / 64 = s.params.protocolVersion.toNat) {rest : Bytes} (hrest : rspUnpack rest = .error e) :
    receiveBody raw (h :: rest) s = discard e raw s :=
  (receiveBody_above hmode (rtUnpack_ownVersion hversion rest)).trans (receiveReliability_bad hrest)

end

/-! ### The obligation -/

/-- Settles O42: the candidate is processed alone (`exec_rxChunk_candidate`); the two checksum tests come first, and a
candidate that passes them is the unit of its body, on which the headers are tested. -/
theorem firstFailingCheckDiscards : Obligations.FirstFailingCheckDiscards := by
  intro x s hopen hcarry chunk verified discards
  have hdiscards {e : Err} (h : processCandidate x s = discard e x s) : discards e :=
    (exec_rxChunk_candidate hopen hcarry x).trans (congrArg _ h)
  refine ⟨fun hverified hshort => ?_, fun hverified hlength hresidue => ?_, fun body hbody => ?_⟩
  · exact hdiscards (processCandidate_badChecksum ((verifyEff_iff _).2 hverified) (verUnpack_short hshort))
  · exact hdiscards (processCandidate_badChecksum ((verifyEff_iff _).2 hverified) (verUnpack_residue hlength hresidue))
  have hunit : x = unitOf s.cfg body := by
    split at hbody
    next hverified => exact hbody.trans (unitOf_checked ((verifyEff_iff _).2 hverified) body).symm
    next hverified => exact hbody.trans (unitOf_unchecked (mt (verifyEff_iff _).1 hverified) body).symm
  have hreceive : processCandidate x s = receiveBody x body s := by
    rw [hunit, processCandidate_unitOf]
  have hfails {e : Err} (h : receiveBody x body s = discard e x s) : discards e := hdiscards (hreceive.trans h)
  refine ⟨fun hmode hempty => ?_, fun h p hmode hhead hversion => ?_, fun hmode hshort => ?_,
    fun b0 b1 p hmode hhead htype => ?_, fun h p hmode hhead hversion hshort => ?_,
    fun h b0 b1 p hmode hhead hversion htype => ?_⟩
  · exact hfails (receiveBody_badRouting hmode (by rw [hempty]; rfl))
  · exact hfails (receiveBody_badRouting hmode (by rw [hhead]; exact rtUnpack_otherVersion hversion p))
  · exact hfails (receiveBody_below_bad hmode (rspUnpack_short hshort))
  · exact hfails (receiveBody_below_bad hmode (by rw [hhead]; exact rspUnpack_badFrameType htype b0 p))
  · exact hfails (by rw [hhead]; exact receiveBody_above_bad hmode hversion (rspUnpack_short hshort))
  · exact hfails (by rw [hhead]; exact receiveBody_above_bad hmode hversion (rspUnpack_badFrameType htype b0 p))

end Sys2Proof.Machine
end

-- ==== Proofs: a plain packet and its arrival ====
section
/-! Chunks received in a row are processed as the candidates of their concatenation, so what one block sends with
`TX.PLAIN` another receives as one packet, however the link divides the frame (R111, R205, R208, R209, R213). -/

namespace Sys2Proof.Machine

/-! ### The receive path does not look at what the agents still present (R59) -/

theorem takeAnswer_fst_of_inbox (s : State) (i : List Input) :
    (takeAnswer { s with inbox := i }).1 = (takeAnswer s).1 := by
  unfold takeAnswer
  cases s.answers <;> rfl

theorem takeAnswer_snd_of_inbox (s : State) (i : List Input) :
    (takeAnswer { s with inbox := i }).2 = { (takeAnswer s).2 with inbox := i } := by
  unfold takeAnswer
  cases s.answers <;> rfl

theorem handler_inbox (req : HandlerRequest) (s : State) (i : List Input) :
    handler req { s with inbox := i } = ((handler req s).1, { (handler req s).2 with inbox := i }) := by
  rw [handler, takeAnswer_fst_of_inbox, takeAnswer_snd_of_inbox]
  rfl

theorem dispatch_inbox (ft : FrameType) (q : SeqNo) (header : Option RtHeader) (d : Bytes) (s : State)
    (i : List Input) : dispatch ft q header d { s with inbox := i } = { dispatch ft q header d s with inbox := i } := by
  cases ft with
  | dataAck => simp only [dispatch, onDataAck, handler_inbox]; rfl
  | dataNoack => simp only [dispatch, onDataNoack, handler_inbox]
  | respAck => rfl
  | respNack => rfl

theorem receiveReliability_inbox (raw : Bytes) (header : Option RtHeader) (body : Bytes) (s : State) (i : List Input) :
    receiveReliability raw header body { s with inbox := i } =
      { receiveReliability raw header body s with inbox := i } := by
  cases hunpack : rspUnpack body with
  | error e => rw [receiveReliability_bad hunpack, receiveReliability_bad hunpack]; rfl
  | ok r => rw [receiveReliability_dispatch hunpack, receiveReliability_dispatch hunpack, dispatch_inbox]

theorem receiveBody_inbox (raw body : Bytes) (s : State) (i : List Input) :
    receiveBody raw body { s with inbox := i } = { receiveBody raw body s with inbox := i } := by
  unfold receiveBody
  dsimp only
  split
  · split <;> rfl
  · exact receiveReliability_inbox raw none body s i
  · split
    · rfl
    · exact receiveReliability_inbox _ _ _ _ _

theorem processCandidate_inbox (x : Bytes) (s : State) (i : List Input) :
    processCandidate x { s with inbox := i } = { processCandidate x s with inbox := i } := by
  unfold processCandidate
  dsimp only
  split
  · split
    · rfl
    · exact receiveBody_inbox _ _ _ _
  · exact receiveBody_inbox _ _ _ _

theorem processAll_inbox (l : List Candidate) (s : State) (i : List Input) :
    processAll l { s with inbox := i } = { processAll l s with inbox := i } := by
  induction l generalizing s with
  | nil => rfl
  | cons c l ih =>
    have hfirst : processResult { s with inbox := i } c = { processResult s c with inbox := i } := by
      cases c with
      | ok x => exact processCandidate_inbox x s i
      | err reason raw => rfl
    calc processAll (c :: l) { s with inbox := i } = processAll l (processResult { s with inbox := i } c) := rfl
      _ = { processAll (c :: l) s with inbox := i } := by rw [hfirst, ih]; rfl

theorem processAll_carry_inbox (l : List Candidate) (s : State) (c : Bytes) (i : List Input) :
    processAll l { s with carry := c, inbox := i } = { processAll l s with carry := c, inbox := i } :=
  (processAll_inbox l { s with carry := c } i).trans
    (congrArg (fun t : State => { t with inbox := i }) (processAll_carry l s c))

/-! ### Chunks in a row -/

theorem Received.inbox {s t : State} (h : Received s t) : t.inbox = s.inbox := by
  obtain ⟨l, ht, -⟩ := h
  rw [ht]

theorem step_chunkInput {s : State} {c : Bytes} {rest : List Input} (h : s.inbox = chunkInput c :: rest) :
    step s = exec (.rxChunk c) { s with inbox := rest } :=
  (step_serve h).trans (serve_ok (i := .rxChunk c) rfl _)

theorem step_chunk_framed {s : State} {c : Bytes} {rest : List Input} (hopen : s.rxClosed = false)
    (hframing : s.cfg.framingEn = true) (hin : s.inbox = chunkInput c :: rest)
    (hcap : s.WithinCap (afterLastZero (s.carry ++ c))) :
    step s = .next (processAll (frameUnpack s.carry c).1
      { s with carry := (frameUnpack s.carry c).2, inbox := rest }) :=
  (step_chunkInput hin).trans (exec_rxChunk_framed (s := { s with inbox := rest }) hopen hframing hcap)

/-- With framing on, a run over chunks that fit processes the candidates of all of them, in order (R59, R111, R208). -/
theorem run_chunks {s : State} {chunks : List Bytes} {rest : List Input} (hopen : s.rxClosed = false)
    (hframing : s.cfg.framingEn = true) (hin : s.inbox = chunks.map chunkInput ++ rest)
    (hcap : ∀ k ≤ chunks.length, s.WithinCap (unpackChunks s.carry (chunks.take k)).2) :
    Sys2Proof.core.run chunks.length s = .next (processAll (unpackChunks s.carry chunks).1
      { s with carry := (unpackChunks s.carry chunks).2, inbox := rest }) := by
  induction chunks generalizing s with
  | nil =>
    subst hin
    rfl
  | cons c cs ih =>
    let s1 : State := { s with carry := (frameUnpack s.carry c).2, inbox := cs.map chunkInput ++ rest }
    have hfirst : s.WithinCap (afterLastZero (s.carry ++ c)) := by
      rw [← frameUnpack_carry]
      exact hcap 1 (by simp)
    have hstep : step s = .next (processAll (frameUnpack s.carry c).1 s1) :=
      step_chunk_framed hopen hframing hin hfirst
    have hreceived := received_all (frameUnpack s.carry c).1 s1
    have hrest := ih (s := processAll (frameUnpack s.carry c).1 s1) (hreceived.rxClosed.trans hopen)
      ((congrArg Cfg.framingEn hreceived.cfg).trans hframing) hreceived.inbox fun k hk => by
        rw [hreceived.carry, State.WithinCap, hreceived.params]
        exact hcap (k + 1) (Nat.succ_le_succ hk)
    rw [hreceived.carry] at hrest
    calc Sys2Proof.core.run (cs.length + 1) s
      _ = Sys2Proof.core.run cs.length (processAll (frameUnpack s.carry c).1 s1) := run_succ hstep _
      _ = .next (processAll (unpackChunks s1.carry cs).1 { processAll (frameUnpack s.carry c).1 s1 with
            carry := (unpackChunks s1.carry cs).2, inbox := rest }) := hrest
      _ = .next (processAll (unpackChunks s1.carry cs).1 (processAll (frameUnpack s.carry c).1
            { s1 with carry := (unpackChunks s1.carry cs).2, inbox := rest })) := by
        rw [processAll_carry_inbox (frameUnpack s.carry c).1 s1 (unpackChunks s1.carry cs).2 rest]
      _ = .next (processAll ((frameUnpack s.carry c).1 ++ (unpackChunks s1.carry cs).1)
            { s with carry := (unpackChunks s1.carry cs).2, inbox := rest }) := by rw [processAll_append]

/-! ### A unit received -/

/-- In `OFF` mode the unit of a body with the block's own header is one packet (R209, R210). -/
theorem processCandidate_packet {s : State} (hmode : s.cfg.relMode = .off) {h : RtHeader}
    (hversion : h.version = s.params.protocolVersion) (p : Bytes) :
    processCandidate (unitOf s.cfg (packRtHeader h :: p)) s = s.emitting [.event (.packet h p)] := by
  have hunpack : rtUnpack s.params.protocolVersion (packRtHeader h :: p) = .ok (h, p) :=
    (rtUnpack_packRtHeader _ h p).trans (if_pos hversion)
  rw [processCandidate_unitOf, receiveBody_packet hmode hunpack]
  rfl

/-- The frame of a unit, in chunks that fit, is processed as that unit (R111, R208). -/
theorem run_frame_chunks {s : State} {u : Bytes} {chunks : List Bytes} {rest : List Input} (hopen : s.rxClosed = false)
    (hframing : s.cfg.framingEn = true) (hcarry : s.carry = []) (hin : s.inbox = chunks.map chunkInput ++ rest)
    (hframe : chunks.flatten = framePack u)
    (hcap : ∀ k < chunks.length, s.WithinCap (afterLastZero (chunks.take k).flatten)) :
    Sys2Proof.core.run chunks.length s = .next (processCandidate u { s with inbox := rest }) := by
  have hunpack (cs : List Bytes) : unpackChunks s.carry cs = frameUnpack [] cs.flatten := by
    rw [hcarry, unpackChunks_eq_flatten (by simp)]
  have hall : unpackChunks s.carry chunks = ([.ok u], []) := by
    rw [hunpack, hframe]
    exact frameUnpack_frame u
  rw [run_chunks hopen hframing hin, hall, ← hcarry]
  · rfl
  · intro k hk
    rcases Nat.lt_or_eq_of_le hk with hlt | rfl
    · rw [hunpack, frameUnpack_carry]
      exact hcap k hlt
    · rw [List.take_length, hall]
      exact fun _ _ => Nat.zero_le _

/-- With framing off, a unit received as one packet is processed whole (R208, R212). -/
theorem run_unit_chunk {s : State} {u : Bytes} {rest : List Input} (hopen : s.rxClosed = false)
    (hframing : s.cfg.framingEn = false) (hin : s.inbox = chunkInput u :: rest) :
    Sys2Proof.core.run 1 s = .next (processCandidate u { s with inbox := rest }) :=
  run_succ ((step_chunkInput hin).trans (exec_rxChunk_unframed (s := { s with inbox := rest }) hopen hframing u)) 0

/-! ### The obligation -/

/-- Settles O47: `TX.PLAIN` writes the frame of one unit (`exec_txPlain_sent`), both forms of delivery process that unit
(`run_frame_chunks`, `run_unit_chunk`), and it is one packet. -/
theorem plainPacketArrives : Obligations.PlainPacketArrives := by
  intro a b ch rr p chunks rest hmax hch hmode hcfg hversion hopen hcarry hin
  let header : RtHeader := ⟨b.params.protocolVersion, BitVec.ofNat 4 ch, rr, 0⟩
  let unit := unitOf b.cfg (packRtHeader header :: p)
  have hsent := exec_txPlain_sent hmax hmode hch rr
  rw [hcfg, hversion] at hsent
  refine ⟨_, _, hsent, fun hdelivered => ?_⟩
  have hpacket : processCandidate unit { b with inbox := rest } =
      { b with inbox := rest }.emitting [.event (.packet header p)] :=
    processCandidate_packet (s := { b with inbox := rest }) (hcfg ▸ hmode) rfl p
  rcases hdelivered with ⟨hframing, hflatten, hcap⟩ | ⟨hframing, rfl⟩
  · have hframe : chunks.flatten = framePack unit := hflatten.trans (if_pos hframing)
    rw [run_frame_chunks hopen hframing (hcarry hframing) hin hframe hcap, hpacket]
  · have hunit : wireOf b.cfg (packRtHeader header :: p) = unit := if_neg (by simp [hframing])
    rw [List.length_singleton, run_unit_chunk (rest := rest) hopen hframing hin, hunit, hpacket]

end Sys2Proof.Machine
end

-- ==== Proofs: a tick and the empty operation ====
section
/-! `TICK` as a whole (R226), assembled from what one tick does to the outputs and to each slot, and `NOP` (R225). -/

namespace Sys2Proof.Machine

theorem exec_tick (s : State) : exec .tick s = .next (tickOnce s) := rfl

theorem exec_nop (s : State) : exec .nop s = .next (s.emitting [.result .ok .none]) := rfl

/-- R33: counting a tick is adding 1 modulo 2^32. -/
theorem ticks_succ (now : Ticks) : now + 1 = BitVec.ofNat 32 ((now.toNat + 1) % 2 ^ 32) := by bv_omega

/-- The outputs of a tick with the sequence numbers written as `0` to `255`. -/
theorem tickOnce_out_range (s : State) :
    (tickOnce s).out = s.out ++ ((List.range 256).filterMap fun n =>
      tickEvent (s.now + 1) (BitVec.ofNat 8 n) (waitGet s (BitVec.ofNat 8 n)) (pendGet s (BitVec.ofNat 8 n))) := by
  rw [tickOnce_out, allSequences, List.filterMap_map]
  rfl

/-- Settles O53: the next state is `tickOnce s`; its frame, its outputs and its slots are those of `tickOnce_frame`,
`tickOnce_out` and `tickOnce_slot`. -/
theorem tickResult : Obligations.TickResult := by
  intro s
  refine ⟨tickOnce s, exec_tick s, ?_, tickOnce_out_range s, tickOnce_slot s⟩
  rw [← ticks_succ]
  exact tickOnce_frame s

/-- Settles O48: the decoder's row of code 0x00, and `exec_nop`. -/
theorem nopResult : Obligations.NopResult :=
  ⟨fun _ => rfl, exec_nop⟩

end Sys2Proof.Machine
end
